-- ==== Sys2Proof/Word.lean ====
section
/-! DEFINITION. The words of the rayy2 CAN transactor: registers are 16 bits wide (R8, R73), payload bytes 8 bits (R21). -/

namespace Sys2Proof

/-- A register value (R8: every register is 16 bits). -/
abbrev Word := BitVec 16

/-- A payload byte (R21). -/
abbrev Byte := BitVec 8

end Sys2Proof
end

