-- ==== Sys2Proof/Syntax.lean ====
section
/-! DEFINITION. The operations of the block as syntax (30_encoding.md): the registers, the command word's parts, the frames the
host procedures take, and Instr with one constructor per row of spec/opcode_table.json. -/

namespace Sys2Proof

/-- The two interfaces: A is IF1, B is IF2 (R3, D54). -/
inductive IfId where
  | if1 | if2
  deriving DecidableEq, Repr, Inhabited

/-- The 11 registers of one interface bank (R24). -/
inductive IfReg where
  | cmdreq | cmdmsk | msk1 | msk2 | arb1 | arb2 | mctrl | da1 | da2 | db1 | db2
  deriving DecidableEq, Repr, Inhabited

/-- Which register of a bitmap pair: lo holds slots 1..16, hi holds slots 17..32 (R41, R74). -/
inductive Half where
  | lo | hi
  deriving DecidableEq, Repr, Inhabited

/-- The 37 registers of the register space (R70, R91). -/
inductive Reg where
  | cntl | stat | ec | bt | int | test
  | iface (k : IfId) (x : IfReg)
  | txreq (h : Half) | nd (h : Half) | ir (h : Half) | msgv (h : Half)
  | clkdiv
  deriving DecidableEq, Repr, Inhabited

/-- A message object's place in the bank: index i is slot number i + 1 (R2: 32 objects, numbered 1 to 32). -/
abbrev Slot := Fin 32

/-- The 1-indexed slot number of a place (GLOSSARY: a message object is 1-indexed). -/
def slotNumber (n : Slot) : Nat := n.val + 1

/-- Identifier format: 11-bit or 29-bit (R207). -/
inductive Fmt where
  | std | ext
  deriving DecidableEq, Repr, Inhabited

/-- Frame type (R207). -/
inductive FrameType where
  | data | remote
  deriving DecidableEq, Repr, Inhabited

/-- A frame (R207): id and len are naturals; data holds exactly 8 bytes, those beyond len included (D31). -/
structure Frame where
  id : Nat
  fmt : Fmt
  type : FrameType
  len : Nat
  data : Vector Byte 8
  deriving DecidableEq, Repr, Inhabited

/-- The seven part selects of a command word, bits 6..0 (R25, R94). -/
structure Parts where
  mask : Bool
  arb : Bool
  ctrl : Bool
  clrIntPnd : Bool
  txRqstNewDat : Bool
  dataA : Bool
  dataB : Bool
  deriving DecidableEq, Repr, Inhabited

/-- The operand of set_mode (R237). -/
inductive ReqMode where
  | disabled | normal | silent | loopback | silentLoopback | globalTest
  deriving DecidableEq, Repr, Inhabited

/-- The two interrupt classes of the registration (R278). -/
inductive IrqClass where
  | rx | tx
  deriving DecidableEq, Repr, Inhabited

/-- The operations: one constructor per row of spec/opcode_table.json, in the table's order. A read carries no operand (its DATA is
ignored, R92); a write carries its 16-bit DATA. The two CMD rows carry the interface whose latched command word they spell and the
word's part selects (R94). FUNC and PROC rows carry the call's arguments (R90). -/
inductive Instr where
  | rdCntl   -- RD.CNTL (R148)
  | rdStat   -- RD.STAT (R142)
  | rdEc   -- RD.EC (R149)
  | rdBt   -- RD.BT (R149)
  | rdInt   -- RD.INT (R149)
  | rdTest   -- RD.TEST (R149)
  | rdIf1Cmdreq   -- RD.IF1_CMDREQ (R151)
  | rdIf1Cmdmsk   -- RD.IF1_CMDMSK (R154)
  | rdIf1Msk1   -- RD.IF1_MSK1 (R154)
  | rdIf1Msk2   -- RD.IF1_MSK2 (R154)
  | rdIf1Arb1   -- RD.IF1_ARB1 (R154)
  | rdIf1Arb2   -- RD.IF1_ARB2 (R154)
  | rdIf1Mctrl   -- RD.IF1_MCTRL (R154)
  | rdIf1Da1   -- RD.IF1_DA1 (R154)
  | rdIf1Da2   -- RD.IF1_DA2 (R154)
  | rdIf1Db1   -- RD.IF1_DB1 (R154)
  | rdIf1Db2   -- RD.IF1_DB2 (R154)
  | rdIf2Cmdreq   -- RD.IF2_CMDREQ (R151)
  | rdIf2Cmdmsk   -- RD.IF2_CMDMSK (R154)
  | rdIf2Msk1   -- RD.IF2_MSK1 (R154)
  | rdIf2Msk2   -- RD.IF2_MSK2 (R154)
  | rdIf2Arb1   -- RD.IF2_ARB1 (R154)
  | rdIf2Arb2   -- RD.IF2_ARB2 (R154)
  | rdIf2Mctrl   -- RD.IF2_MCTRL (R154)
  | rdIf2Da1   -- RD.IF2_DA1 (R154)
  | rdIf2Da2   -- RD.IF2_DA2 (R154)
  | rdIf2Db1   -- RD.IF2_DB1 (R154)
  | rdIf2Db2   -- RD.IF2_DB2 (R154)
  | rdTxreq1   -- RD.TXREQ1 (R149)
  | rdTxreq2   -- RD.TXREQ2 (R149)
  | rdNd1   -- RD.ND1 (R149)
  | rdNd2   -- RD.ND2 (R149)
  | rdIr1   -- RD.IR1 (R149)
  | rdIr2   -- RD.IR2 (R149)
  | rdMsgv1   -- RD.MSGV1 (R149)
  | rdMsgv2   -- RD.MSGV2 (R149)
  | rdClkdiv   -- RD.CLKDIV (R149)
  | wrCntl (v : Word)   -- WR.CNTL (R147)
  | wrStat (v : Word)   -- WR.STAT (R143)
  | wrBt (v : Word)   -- WR.BT (R144)
  | wrTest (v : Word)   -- WR.TEST (R146)
  | wrIf1Cmdreq (v : Word)   -- WR.IF1_CMDREQ (R150)
  | wrIf1Cmdmsk (v : Word)   -- WR.IF1_CMDMSK (R152)
  | wrIf1Msk1 (v : Word)   -- WR.IF1_MSK1 (R153)
  | wrIf1Msk2 (v : Word)   -- WR.IF1_MSK2 (R153)
  | wrIf1Arb1 (v : Word)   -- WR.IF1_ARB1 (R153)
  | wrIf1Arb2 (v : Word)   -- WR.IF1_ARB2 (R153)
  | wrIf1Mctrl (v : Word)   -- WR.IF1_MCTRL (R153)
  | wrIf1Da1 (v : Word)   -- WR.IF1_DA1 (R153)
  | wrIf1Da2 (v : Word)   -- WR.IF1_DA2 (R153)
  | wrIf1Db1 (v : Word)   -- WR.IF1_DB1 (R153)
  | wrIf1Db2 (v : Word)   -- WR.IF1_DB2 (R153)
  | wrIf2Cmdreq (v : Word)   -- WR.IF2_CMDREQ (R150)
  | wrIf2Cmdmsk (v : Word)   -- WR.IF2_CMDMSK (R152)
  | wrIf2Msk1 (v : Word)   -- WR.IF2_MSK1 (R153)
  | wrIf2Msk2 (v : Word)   -- WR.IF2_MSK2 (R153)
  | wrIf2Arb1 (v : Word)   -- WR.IF2_ARB1 (R153)
  | wrIf2Arb2 (v : Word)   -- WR.IF2_ARB2 (R153)
  | wrIf2Mctrl (v : Word)   -- WR.IF2_MCTRL (R153)
  | wrIf2Da1 (v : Word)   -- WR.IF2_DA1 (R153)
  | wrIf2Da2 (v : Word)   -- WR.IF2_DA2 (R153)
  | wrIf2Db1 (v : Word)   -- WR.IF2_DB1 (R153)
  | wrIf2Db2 (v : Word)   -- WR.IF2_DB2 (R153)
  | wrClkdiv (v : Word)   -- WR.CLKDIV (R145)
  | xferWr (k : IfId) (p : Parts)   -- XFER_WR (R160)
  | xferRd (k : IfId) (p : Parts)   -- XFER_RD (R160)
  | btcalc (clk rate rjw : Nat)   -- BTCALC (R120)
  | packFilter (id mask : Nat) (fmt : Fmt)   -- PACK_FILTER (R190)
  | packTx (frame : Frame)   -- PACK_TX (R200)
  | unpackRx (arb1 arb2 mctrl da1 da2 db1 db2 : Word)   -- UNPACK_RX (R215)
  | spin (k : IfId)   -- SPIN (R170)
  | transfer (k : IfId) (n : Word) (c : Byte)   -- TRANSFER (R171)
  | clrTxok   -- CLR_TXOK (R203)
  | clrRxok   -- CLR_RXOK (R218)
  | setCntl (m : Word)   -- SET_CNTL (R230)
  | clrCntl (m : Word)   -- CLR_CNTL (R230)
  | enable   -- ENABLE (R231)
  | installTemplates   -- INSTALL_TEMPLATES (R232)
  | setBitrate (rate : Nat)   -- SET_BITRATE (R130)
  | installFilter (id mask : Nat) (fmt : Fmt) (slot : Nat)   -- INSTALL_FILTER (R193)
  | send (frame : Frame) (flags : Nat)   -- SEND (R204)
  | txStatus   -- TX_STATUS (R206)
  | receive (slot : Nat)   -- RECEIVE (R219)
  | rxErrCount   -- RX_ERR_COUNT (R222)
  | txErrCount   -- TX_ERR_COUNT (R222)
  | init (rxPin txPin : Nat)   -- INIT (R233)
  | setMode (m : ReqMode)   -- SET_MODE (R237)
  | monitor (on : Bool)   -- MONITOR (R239)
  | reset   -- RESET (R241)
  | teardown   -- TEARDOWN (R242)
  | irqRegister (cb token : Nat)   -- IRQ_REGISTER (R276)
  | irqUnregister   -- IRQ_UNREGISTER (R277)
  | irqEnableClass (cls : IrqClass) (on : Bool)   -- IRQ_ENABLE_CLASS (R278)
  | dispatch   -- DISPATCH (R280)
  deriving DecidableEq, Repr

/-- An encoded operation: a BUS word (R92), or the command word held by an interface (R94). -/
inductive Code where
  | bus (t : BitVec 32)
  | cmd (k : IfId) (c : Byte)
  deriving DecidableEq, Repr

/-- What a bus word's row is: a read of a register, a write of one, or no bus transaction (R90). -/
inductive BusOp where
  | rd (r : Reg)
  | wr (r : Reg) (v : Word)
  deriving DecidableEq, Repr

end Sys2Proof
end

