-- ==== Sys2Proof/WellFormed.lean ====
section
/-! DEFINITION. Which operations are in the domain the spec gives their operands (R128, R171, R192, R202, R219). -/

namespace Sys2Proof

/-- The identifier widths of a format as the largest value: 0x7FF or 0x1FFFFFFF (R192, R202). -/
def Fmt.maxId : Fmt → Nat
  | .std => 0x7FF
  | .ext => 0x1FFFFFFF

/-- The operand domain of pack_filter (R192). -/
def filterDomain (id mask : Nat) (fmt : Fmt) : Bool :=
  decide (id ≤ fmt.maxId) && decide (mask ≤ fmt.maxId)

/-- The domain of send (R202). -/
def sendDomain (f : Frame) : Bool :=
  decide (f.id ≤ f.fmt.maxId) && decide (f.len ≤ 8)

/-- An operation whose operands lie in the domain its rule gives. Every bus transaction and every command word is well formed
(R94: all 256 command words are legal). -/
def wellFormed : Instr → Bool
  | .btcalc _ _ rjw => decide (rjw ≤ 3)
  | .packFilter id mask fmt => filterDomain id mask fmt
  | .packTx f => sendDomain f
  | .installFilter id mask fmt slot => filterDomain id mask fmt && decide (slot ≤ 32)
  | .send f _ => sendDomain f
  | .receive slot => decide (slot ≤ 32)
  | .transfer _ n _ => decide (1 ≤ n.toNat) && decide (n.toNat ≤ 32)
  | _ => true

end Sys2Proof
end

