-- ==== Sys2Proof/Decode.lean ====
section
/-! DEFINITION. Encoding (30_encoding.md): register offsets (R91), BUS words (R92, R93), command words (R94), host accesses of other
widths (R73, R75), and the encoder written from the same tables. -/

namespace Sys2Proof

/-- Why a spelling is no operation of the block (R93, R96). -/
inductive DecodeError where
  /-- R_BAD_OFFSET: the offset, or the whole word when Z is not 0. -/
  | badOffset (info : Nat)
  /-- R_BAD_WIDTH: an 8-bit access at this offset. -/
  | badWidth (off : Nat)
  /-- R_RO_WRITE: a write to this read-only register. -/
  | roWrite (r : Reg)
  deriving DecidableEq, Repr

/-- The decoder's answer. -/
inductive Decoded where
  | instr (i : Instr)
  | rejected (e : DecodeError)
  deriving DecidableEq, Repr

/-- The offset of an interface register in bank IF1 (R91). -/
def ifRegOffset : IfReg → Nat
  | .cmdreq => 0x020
  | .cmdmsk => 0x024
  | .msk1 => 0x028
  | .msk2 => 0x02C
  | .arb1 => 0x030
  | .arb2 => 0x034
  | .mctrl => 0x038
  | .da1 => 0x03C
  | .da2 => 0x040
  | .db1 => 0x044
  | .db2 => 0x048

/-- REG_OFFSET, the default table of R91; IF2_x = IF1_x + 0x060 (DESIGN CHOICE, log entry 12). -/
def regOffset : Reg → Nat
  | .cntl => 0x000
  | .stat => 0x004
  | .ec => 0x008
  | .bt => 0x00C
  | .int => 0x010
  | .test => 0x014
  | .iface .if1 x => ifRegOffset x
  | .iface .if2 x => ifRegOffset x + 0x060
  | .txreq .lo => 0x100
  | .txreq .hi => 0x104
  | .nd .lo => 0x120
  | .nd .hi => 0x124
  | .ir .lo => 0x140
  | .ir .hi => 0x144
  | .msgv .lo => 0x160
  | .msgv .hi => 0x164
  | .clkdiv => 0x180

/-- The 37 registers, in the order of R91. -/
def allRegs : List Reg :=
  [.cntl, .stat, .ec, .bt, .int, .test,
   .iface .if1 .cmdreq, .iface .if1 .cmdmsk, .iface .if1 .msk1, .iface .if1 .msk2, .iface .if1 .arb1, .iface .if1 .arb2,
   .iface .if1 .mctrl, .iface .if1 .da1, .iface .if1 .da2, .iface .if1 .db1, .iface .if1 .db2,
   .iface .if2 .cmdreq, .iface .if2 .cmdmsk, .iface .if2 .msk1, .iface .if2 .msk2, .iface .if2 .arb1, .iface .if2 .arb2,
   .iface .if2 .mctrl, .iface .if2 .da1, .iface .if2 .da2, .iface .if2 .db1, .iface .if2 .db2,
   .txreq .lo, .txreq .hi, .nd .lo, .nd .hi, .ir .lo, .ir .hi, .msgv .lo, .msgv .hi, .clkdiv]

/-- The register at an offset, if one has it (R75, R93: no other offset names or aliases a register). -/
def regAtOffset (off : Nat) : Option Reg := allRegs.find? (fun r => regOffset r == off)

/-- The read operation RD.r (R93). -/
def readOp : Reg → Instr
  | .cntl => .rdCntl
  | .stat => .rdStat
  | .ec => .rdEc
  | .bt => .rdBt
  | .int => .rdInt
  | .test => .rdTest
  | .iface .if1 .cmdreq => .rdIf1Cmdreq
  | .iface .if1 .cmdmsk => .rdIf1Cmdmsk
  | .iface .if1 .msk1 => .rdIf1Msk1
  | .iface .if1 .msk2 => .rdIf1Msk2
  | .iface .if1 .arb1 => .rdIf1Arb1
  | .iface .if1 .arb2 => .rdIf1Arb2
  | .iface .if1 .mctrl => .rdIf1Mctrl
  | .iface .if1 .da1 => .rdIf1Da1
  | .iface .if1 .da2 => .rdIf1Da2
  | .iface .if1 .db1 => .rdIf1Db1
  | .iface .if1 .db2 => .rdIf1Db2
  | .iface .if2 .cmdreq => .rdIf2Cmdreq
  | .iface .if2 .cmdmsk => .rdIf2Cmdmsk
  | .iface .if2 .msk1 => .rdIf2Msk1
  | .iface .if2 .msk2 => .rdIf2Msk2
  | .iface .if2 .arb1 => .rdIf2Arb1
  | .iface .if2 .arb2 => .rdIf2Arb2
  | .iface .if2 .mctrl => .rdIf2Mctrl
  | .iface .if2 .da1 => .rdIf2Da1
  | .iface .if2 .da2 => .rdIf2Da2
  | .iface .if2 .db1 => .rdIf2Db1
  | .iface .if2 .db2 => .rdIf2Db2
  | .txreq .lo => .rdTxreq1
  | .txreq .hi => .rdTxreq2
  | .nd .lo => .rdNd1
  | .nd .hi => .rdNd2
  | .ir .lo => .rdIr1
  | .ir .hi => .rdIr2
  | .msgv .lo => .rdMsgv1
  | .msgv .hi => .rdMsgv2
  | .clkdiv => .rdClkdiv

/-- The write operation WR.r; none for a read-only register (R76, R93). -/
def writeOp : Reg → Word → Option Instr
  | .cntl, v => some (.wrCntl v)
  | .stat, v => some (.wrStat v)
  | .bt, v => some (.wrBt v)
  | .test, v => some (.wrTest v)
  | .iface .if1 .cmdreq, v => some (.wrIf1Cmdreq v)
  | .iface .if1 .cmdmsk, v => some (.wrIf1Cmdmsk v)
  | .iface .if1 .msk1, v => some (.wrIf1Msk1 v)
  | .iface .if1 .msk2, v => some (.wrIf1Msk2 v)
  | .iface .if1 .arb1, v => some (.wrIf1Arb1 v)
  | .iface .if1 .arb2, v => some (.wrIf1Arb2 v)
  | .iface .if1 .mctrl, v => some (.wrIf1Mctrl v)
  | .iface .if1 .da1, v => some (.wrIf1Da1 v)
  | .iface .if1 .da2, v => some (.wrIf1Da2 v)
  | .iface .if1 .db1, v => some (.wrIf1Db1 v)
  | .iface .if1 .db2, v => some (.wrIf1Db2 v)
  | .iface .if2 .cmdreq, v => some (.wrIf2Cmdreq v)
  | .iface .if2 .cmdmsk, v => some (.wrIf2Cmdmsk v)
  | .iface .if2 .msk1, v => some (.wrIf2Msk1 v)
  | .iface .if2 .msk2, v => some (.wrIf2Msk2 v)
  | .iface .if2 .arb1, v => some (.wrIf2Arb1 v)
  | .iface .if2 .arb2, v => some (.wrIf2Arb2 v)
  | .iface .if2 .mctrl, v => some (.wrIf2Mctrl v)
  | .iface .if2 .da1, v => some (.wrIf2Da1 v)
  | .iface .if2 .da2, v => some (.wrIf2Da2 v)
  | .iface .if2 .db1, v => some (.wrIf2Db1 v)
  | .iface .if2 .db2, v => some (.wrIf2Db2 v)
  | .clkdiv, v => some (.wrClkdiv v)
  | .ec, _ | .int, _ | .txreq _, _ | .nd _, _ | .ir _, _ | .msgv _, _ => none

/-- The bus transaction an operation is, if it is one (R90). -/
def busOp : Instr → Option BusOp
  | .rdCntl => some (.rd .cntl)
  | .rdStat => some (.rd (.stat))
  | .rdEc => some (.rd (.ec))
  | .rdBt => some (.rd (.bt))
  | .rdInt => some (.rd (.int))
  | .rdTest => some (.rd (.test))
  | .rdIf1Cmdreq => some (.rd (.iface .if1 .cmdreq))
  | .rdIf1Cmdmsk => some (.rd (.iface .if1 .cmdmsk))
  | .rdIf1Msk1 => some (.rd (.iface .if1 .msk1))
  | .rdIf1Msk2 => some (.rd (.iface .if1 .msk2))
  | .rdIf1Arb1 => some (.rd (.iface .if1 .arb1))
  | .rdIf1Arb2 => some (.rd (.iface .if1 .arb2))
  | .rdIf1Mctrl => some (.rd (.iface .if1 .mctrl))
  | .rdIf1Da1 => some (.rd (.iface .if1 .da1))
  | .rdIf1Da2 => some (.rd (.iface .if1 .da2))
  | .rdIf1Db1 => some (.rd (.iface .if1 .db1))
  | .rdIf1Db2 => some (.rd (.iface .if1 .db2))
  | .rdIf2Cmdreq => some (.rd (.iface .if2 .cmdreq))
  | .rdIf2Cmdmsk => some (.rd (.iface .if2 .cmdmsk))
  | .rdIf2Msk1 => some (.rd (.iface .if2 .msk1))
  | .rdIf2Msk2 => some (.rd (.iface .if2 .msk2))
  | .rdIf2Arb1 => some (.rd (.iface .if2 .arb1))
  | .rdIf2Arb2 => some (.rd (.iface .if2 .arb2))
  | .rdIf2Mctrl => some (.rd (.iface .if2 .mctrl))
  | .rdIf2Da1 => some (.rd (.iface .if2 .da1))
  | .rdIf2Da2 => some (.rd (.iface .if2 .da2))
  | .rdIf2Db1 => some (.rd (.iface .if2 .db1))
  | .rdIf2Db2 => some (.rd (.iface .if2 .db2))
  | .rdTxreq1 => some (.rd (.txreq .lo))
  | .rdTxreq2 => some (.rd (.txreq .hi))
  | .rdNd1 => some (.rd (.nd .lo))
  | .rdNd2 => some (.rd (.nd .hi))
  | .rdIr1 => some (.rd (.ir .lo))
  | .rdIr2 => some (.rd (.ir .hi))
  | .rdMsgv1 => some (.rd (.msgv .lo))
  | .rdMsgv2 => some (.rd (.msgv .hi))
  | .rdClkdiv => some (.rd (.clkdiv))
  | .wrCntl v => some (.wr (.cntl) v)
  | .wrStat v => some (.wr (.stat) v)
  | .wrBt v => some (.wr (.bt) v)
  | .wrTest v => some (.wr (.test) v)
  | .wrIf1Cmdreq v => some (.wr (.iface .if1 .cmdreq) v)
  | .wrIf1Cmdmsk v => some (.wr (.iface .if1 .cmdmsk) v)
  | .wrIf1Msk1 v => some (.wr (.iface .if1 .msk1) v)
  | .wrIf1Msk2 v => some (.wr (.iface .if1 .msk2) v)
  | .wrIf1Arb1 v => some (.wr (.iface .if1 .arb1) v)
  | .wrIf1Arb2 v => some (.wr (.iface .if1 .arb2) v)
  | .wrIf1Mctrl v => some (.wr (.iface .if1 .mctrl) v)
  | .wrIf1Da1 v => some (.wr (.iface .if1 .da1) v)
  | .wrIf1Da2 v => some (.wr (.iface .if1 .da2) v)
  | .wrIf1Db1 v => some (.wr (.iface .if1 .db1) v)
  | .wrIf1Db2 v => some (.wr (.iface .if1 .db2) v)
  | .wrIf2Cmdreq v => some (.wr (.iface .if2 .cmdreq) v)
  | .wrIf2Cmdmsk v => some (.wr (.iface .if2 .cmdmsk) v)
  | .wrIf2Msk1 v => some (.wr (.iface .if2 .msk1) v)
  | .wrIf2Msk2 v => some (.wr (.iface .if2 .msk2) v)
  | .wrIf2Arb1 v => some (.wr (.iface .if2 .arb1) v)
  | .wrIf2Arb2 v => some (.wr (.iface .if2 .arb2) v)
  | .wrIf2Mctrl v => some (.wr (.iface .if2 .mctrl) v)
  | .wrIf2Da1 v => some (.wr (.iface .if2 .da1) v)
  | .wrIf2Da2 v => some (.wr (.iface .if2 .da2) v)
  | .wrIf2Db1 v => some (.wr (.iface .if2 .db1) v)
  | .wrIf2Db2 v => some (.wr (.iface .if2 .db2) v)
  | .wrClkdiv v => some (.wr (.clkdiv) v)
  | _ => none

/-- A transaction by direction, offset and data, after the width and Z checks (R93). -/
def decodeAt (write : Bool) (off : Nat) (v : Word) : Decoded :=
  match regAtOffset off with
  | none => .rejected (.badOffset off)
  | some r =>
    if write then
      match writeOp r v with
      | some i => .instr i
      | none => .rejected (.roWrite r)
    else .instr (readOp r)

/-- Decoding a BUS word (R93): Z first, then the offset, then the read-only check. -/
def decodeBus (t : BitVec 32) : Decoded :=
  if t.extractLsb' 28 3 ≠ 0#3 then .rejected (.badOffset t.toNat)
  else decodeAt (t.getLsbD 31) (t.extractLsb' 16 12).toNat (t.extractLsb' 0 16)

/-- The part selects of a command word (R94). -/
def partsOf (c : Byte) : Parts where
  mask := c.getLsbD 6
  arb := c.getLsbD 5
  ctrl := c.getLsbD 4
  clrIntPnd := c.getLsbD 3
  txRqstNewDat := c.getLsbD 2
  dataA := c.getLsbD 1
  dataB := c.getLsbD 0

/-- The transfer a latched command word selects (R94, R160): bit 7 gives the direction. -/
def decodeCmd (k : IfId) (c : Byte) : Instr :=
  if c.getLsbD 7 then .xferWr k (partsOf c) else .xferRd k (partsOf c)

/-- The decoder. -/
def decode : Code → Decoded
  | .bus t => decodeBus t
  | .cmd k c => .instr (decodeCmd k c)

/-- The width of a host access (R73, R75). -/
inductive AccessWidth where
  | w8 | w16 | w32
  deriving DecidableEq, Repr

/-- A host access of any width at an offset (R73, R75, R265: R_BAD_OFFSET, then R_BAD_WIDTH, then R_RO_WRITE). A 32-bit access uses
bits 15:0. -/
def decodeAccess (width : AccessWidth) (write : Bool) (off : Nat) (data : BitVec 32) : Decoded :=
  match width, regAtOffset off with
  | .w8, some _ => .rejected (.badWidth off)
  | _, _ => decodeAt write off (data.extractLsb' 0 16)

/-- The BUS word of a transaction (R92): W in bit 31, Z = 0, OFF in bits 27:16, DATA in bits 15:0 (0 for a read). -/
def busWord : BusOp → BitVec 32
  | .rd r => BitVec.ofNat 32 (regOffset r * 2 ^ 16)
  | .wr r v => BitVec.ofNat 32 (2 ^ 31 + regOffset r * 2 ^ 16 + v.toNat)

/-- The low seven bits of a command word (R94). -/
def partsValue (p : Parts) : Nat :=
  p.mask.toNat * 64 + p.arb.toNat * 32 + p.ctrl.toNat * 16 + p.clrIntPnd.toNat * 8 + p.txRqstNewDat.toNat * 4 +
    p.dataA.toNat * 2 + p.dataB.toNat

/-- The encoder: BUS rows have a word, CMD rows a command word, FUNC and PROC rows none (R90: match and mask are null). -/
def encode (i : Instr) : Option Code :=
  match busOp i with
  | some op => some (.bus (busWord op))
  | none =>
    match i with
    | .xferWr k p => some (.cmd k (BitVec.ofNat 8 (128 + partsValue p)))
    | .xferRd k p => some (.cmd k (BitVec.ofNat 8 (partsValue p)))
    | _ => none

/-- The decoder on an opcode-table word: 32 bits are a BUS word, 8 bits a command word, taken as one that interface IF1 holds (the
table's CMD rows name no interface). Rows without bits have no word (DESIGN CHOICE, log entry 19). -/
def decodeTableWord (nbits w : Nat) : Option Instr :=
  match nbits with
  | 32 => match decodeBus (BitVec.ofNat 32 w) with
    | .instr i => some i
    | .rejected _ => none
  | 8 => some (decodeCmd .if1 (BitVec.ofNat 8 w))
  | _ => none

/-! ### Each constructor's word, written out from R91 and R92 (R94 for the two command words) -/

theorem decode_rdCntl : decodeBus 0x00000000#32 = .instr .rdCntl := by decide
theorem decode_rdStat : decodeBus 0x00040000#32 = .instr .rdStat := by decide
theorem decode_rdEc : decodeBus 0x00080000#32 = .instr .rdEc := by decide
theorem decode_rdBt : decodeBus 0x000C0000#32 = .instr .rdBt := by decide
theorem decode_rdInt : decodeBus 0x00100000#32 = .instr .rdInt := by decide
theorem decode_rdTest : decodeBus 0x00140000#32 = .instr .rdTest := by decide
theorem decode_rdIf1Cmdreq : decodeBus 0x00200000#32 = .instr .rdIf1Cmdreq := by decide
theorem decode_rdIf1Cmdmsk : decodeBus 0x00240000#32 = .instr .rdIf1Cmdmsk := by decide
theorem decode_rdIf1Msk1 : decodeBus 0x00280000#32 = .instr .rdIf1Msk1 := by decide
theorem decode_rdIf1Msk2 : decodeBus 0x002C0000#32 = .instr .rdIf1Msk2 := by decide
theorem decode_rdIf1Arb1 : decodeBus 0x00300000#32 = .instr .rdIf1Arb1 := by decide
theorem decode_rdIf1Arb2 : decodeBus 0x00340000#32 = .instr .rdIf1Arb2 := by decide
theorem decode_rdIf1Mctrl : decodeBus 0x00380000#32 = .instr .rdIf1Mctrl := by decide
theorem decode_rdIf1Da1 : decodeBus 0x003C0000#32 = .instr .rdIf1Da1 := by decide
theorem decode_rdIf1Da2 : decodeBus 0x00400000#32 = .instr .rdIf1Da2 := by decide
theorem decode_rdIf1Db1 : decodeBus 0x00440000#32 = .instr .rdIf1Db1 := by decide
theorem decode_rdIf1Db2 : decodeBus 0x00480000#32 = .instr .rdIf1Db2 := by decide
theorem decode_rdIf2Cmdreq : decodeBus 0x00800000#32 = .instr .rdIf2Cmdreq := by decide
theorem decode_rdIf2Cmdmsk : decodeBus 0x00840000#32 = .instr .rdIf2Cmdmsk := by decide
theorem decode_rdIf2Msk1 : decodeBus 0x00880000#32 = .instr .rdIf2Msk1 := by decide
theorem decode_rdIf2Msk2 : decodeBus 0x008C0000#32 = .instr .rdIf2Msk2 := by decide
theorem decode_rdIf2Arb1 : decodeBus 0x00900000#32 = .instr .rdIf2Arb1 := by decide
theorem decode_rdIf2Arb2 : decodeBus 0x00940000#32 = .instr .rdIf2Arb2 := by decide
theorem decode_rdIf2Mctrl : decodeBus 0x00980000#32 = .instr .rdIf2Mctrl := by decide
theorem decode_rdIf2Da1 : decodeBus 0x009C0000#32 = .instr .rdIf2Da1 := by decide
theorem decode_rdIf2Da2 : decodeBus 0x00A00000#32 = .instr .rdIf2Da2 := by decide
theorem decode_rdIf2Db1 : decodeBus 0x00A40000#32 = .instr .rdIf2Db1 := by decide
theorem decode_rdIf2Db2 : decodeBus 0x00A80000#32 = .instr .rdIf2Db2 := by decide
theorem decode_rdTxreq1 : decodeBus 0x01000000#32 = .instr .rdTxreq1 := by decide
theorem decode_rdTxreq2 : decodeBus 0x01040000#32 = .instr .rdTxreq2 := by decide
theorem decode_rdNd1 : decodeBus 0x01200000#32 = .instr .rdNd1 := by decide
theorem decode_rdNd2 : decodeBus 0x01240000#32 = .instr .rdNd2 := by decide
theorem decode_rdIr1 : decodeBus 0x01400000#32 = .instr .rdIr1 := by decide
theorem decode_rdIr2 : decodeBus 0x01440000#32 = .instr .rdIr2 := by decide
theorem decode_rdMsgv1 : decodeBus 0x01600000#32 = .instr .rdMsgv1 := by decide
theorem decode_rdMsgv2 : decodeBus 0x01640000#32 = .instr .rdMsgv2 := by decide
theorem decode_rdClkdiv : decodeBus 0x01800000#32 = .instr .rdClkdiv := by decide
theorem decode_wrCntl : decodeBus 0x80001234#32 = .instr (.wrCntl 0x1234#16) := by decide
theorem decode_wrStat : decodeBus 0x80041234#32 = .instr (.wrStat 0x1234#16) := by decide
theorem decode_wrBt : decodeBus 0x800C1234#32 = .instr (.wrBt 0x1234#16) := by decide
theorem decode_wrTest : decodeBus 0x80141234#32 = .instr (.wrTest 0x1234#16) := by decide
theorem decode_wrIf1Cmdreq : decodeBus 0x80201234#32 = .instr (.wrIf1Cmdreq 0x1234#16) := by decide
theorem decode_wrIf1Cmdmsk : decodeBus 0x80241234#32 = .instr (.wrIf1Cmdmsk 0x1234#16) := by decide
theorem decode_wrIf1Msk1 : decodeBus 0x80281234#32 = .instr (.wrIf1Msk1 0x1234#16) := by decide
theorem decode_wrIf1Msk2 : decodeBus 0x802C1234#32 = .instr (.wrIf1Msk2 0x1234#16) := by decide
theorem decode_wrIf1Arb1 : decodeBus 0x80301234#32 = .instr (.wrIf1Arb1 0x1234#16) := by decide
theorem decode_wrIf1Arb2 : decodeBus 0x80341234#32 = .instr (.wrIf1Arb2 0x1234#16) := by decide
theorem decode_wrIf1Mctrl : decodeBus 0x80381234#32 = .instr (.wrIf1Mctrl 0x1234#16) := by decide
theorem decode_wrIf1Da1 : decodeBus 0x803C1234#32 = .instr (.wrIf1Da1 0x1234#16) := by decide
theorem decode_wrIf1Da2 : decodeBus 0x80401234#32 = .instr (.wrIf1Da2 0x1234#16) := by decide
theorem decode_wrIf1Db1 : decodeBus 0x80441234#32 = .instr (.wrIf1Db1 0x1234#16) := by decide
theorem decode_wrIf1Db2 : decodeBus 0x80481234#32 = .instr (.wrIf1Db2 0x1234#16) := by decide
theorem decode_wrIf2Cmdreq : decodeBus 0x80801234#32 = .instr (.wrIf2Cmdreq 0x1234#16) := by decide
theorem decode_wrIf2Cmdmsk : decodeBus 0x80841234#32 = .instr (.wrIf2Cmdmsk 0x1234#16) := by decide
theorem decode_wrIf2Msk1 : decodeBus 0x80881234#32 = .instr (.wrIf2Msk1 0x1234#16) := by decide
theorem decode_wrIf2Msk2 : decodeBus 0x808C1234#32 = .instr (.wrIf2Msk2 0x1234#16) := by decide
theorem decode_wrIf2Arb1 : decodeBus 0x80901234#32 = .instr (.wrIf2Arb1 0x1234#16) := by decide
theorem decode_wrIf2Arb2 : decodeBus 0x80941234#32 = .instr (.wrIf2Arb2 0x1234#16) := by decide
theorem decode_wrIf2Mctrl : decodeBus 0x80981234#32 = .instr (.wrIf2Mctrl 0x1234#16) := by decide
theorem decode_wrIf2Da1 : decodeBus 0x809C1234#32 = .instr (.wrIf2Da1 0x1234#16) := by decide
theorem decode_wrIf2Da2 : decodeBus 0x80A01234#32 = .instr (.wrIf2Da2 0x1234#16) := by decide
theorem decode_wrIf2Db1 : decodeBus 0x80A41234#32 = .instr (.wrIf2Db1 0x1234#16) := by decide
theorem decode_wrIf2Db2 : decodeBus 0x80A81234#32 = .instr (.wrIf2Db2 0x1234#16) := by decide
theorem decode_wrClkdiv : decodeBus 0x81801234#32 = .instr (.wrClkdiv 0x1234#16) := by decide
theorem decode_xferWr : decodeCmd .if1 0xF4#8 = .xferWr .if1 ⟨true, true, true, false, true, false, false⟩ := by decide
theorem decode_xferRd : decodeCmd .if2 0x0B#8 = .xferRd .if2 ⟨false, false, false, true, false, true, true⟩ := by decide

end Sys2Proof
end

