-- ==== Sys2Proof/Machine/Block.lean ====
section
/-! DEFINITION. The block's own state (10_state.md) as plain data, and the records the host side and the environment use: fault and
refusal marks, procedure results, callback events, protocol-engine events, turns. -/

namespace Sys2Proof.Machine

/-- CNTL's stored bits (R33). Reserved bits hold nothing (R38). -/
structure Cntl where
  test : Bool
  cce : Bool
  dar : Bool
  eie : Bool
  sie : Bool
  ie : Bool
  init : Bool
  deriving DecidableEq, Repr, Inhabited

/-- STAT's bits (R34). -/
structure Stat where
  boff : Bool
  ewarn : Bool
  epass : Bool
  rxok : Bool
  txok : Bool
  lec : BitVec 3
  deriving DecidableEq, Repr, Inhabited

/-- TEST's stored bits (R39): LBACK and SILENT. RX is an input, BASIC and TX are never stored (R146). -/
structure TestBits where
  lback : Bool
  silent : Bool
  deriving DecidableEq, Repr, Inhabited

/-- One interface bank (R24 to R32): the registers as words, their reserved bits held 0, and the hidden busy, slot and cmd (R31). -/
structure Iface where
  busy : Bool
  slot : Slot
  cmd : Byte
  msgnum : BitVec 6
  cmdmsk : Byte
  msk1 : Word
  msk2 : Word
  arb1 : Word
  arb2 : Word
  mctrl : Word
  da1 : Word
  da2 : Word
  db1 : Word
  db2 : Word
  deriving DecidableEq, Repr, Inhabited

/-- A message object (R21). -/
structure Obj where
  msgval : Bool
  xtd : Bool
  dir : Bool
  id : BitVec 29
  mxtd : Bool
  mdir : Bool
  msk : BitVec 29
  newdat : Bool
  msglst : Bool
  intpnd : Bool
  umask : Bool
  txie : Bool
  rxie : Bool
  rmten : Bool
  txrqst : Bool
  eob : Bool
  dlc : BitVec 4
  data : Vector Byte 8
  deriving DecidableEq, Repr, Inhabited

/-- Everything a block reset sets (R300): the registers, both interfaces, the message RAM, and the two hidden latches. -/
structure Block where
  cntl : Cntl
  stat : Stat
  ec : Word
  bt : BitVec 15
  clkdiv : Word
  test : TestBits
  if1 : Iface
  if2 : Iface
  objs : Vector Obj 32
  statInt : Bool
  initPending : Bool
  deriving DecidableEq, Repr, Inhabited

/-- A fault of a bus write, as recorded in the faults mark (R262). -/
inductive BusFault where
  /-- F_BAD_MSGNUM (code 16). -/
  | badMsgnum (k : IfId) (n : BitVec 6)
  /-- F_IF_BUSY (code 17). -/
  | ifBusy (k : IfId) (x : IfReg)
  /-- F_PROTECTED_WRITE (code 18). -/
  | protectedWrite (r : Reg) (v : Word)
  /-- F_UNMODELLED_TEST (code 19). -/
  | unmodelledTest (v : Word)
  deriving DecidableEq, Repr

/-- The operand outside its domain that an R_ARG_DOMAIN refusal records (R261). -/
inductive BadOperand where
  | rjw (n : Nat)
  | ident (n : Nat)
  | mask (n : Nat)
  | len (n : Nat)
  | slot (n : Nat)
  deriving DecidableEq, Repr

/-- The procedures that check an operand domain (R261). -/
inductive Checked where
  | btcalc | packFilter | packTx | installFilter | send | receive
  deriving DecidableEq, Repr

/-- A refusal, as the state-wide mark records it (R261, R44). -/
inductive RefusalMark where
  /-- R_BAD_OFFSET (code 32). -/
  | badOffset (info : Nat)
  /-- R_BAD_WIDTH (code 33). -/
  | badWidth (off : Nat)
  /-- R_RO_WRITE (code 34). -/
  | roWrite (r : Reg)
  /-- R_ARG_DOMAIN (code 35). -/
  | argDomain (p : Checked) (o : BadOperand)
  deriving DecidableEq, Repr

/-- Which failure a result 0 is (R263, codes 1 to 5). -/
inductive FailCode where
  | noFreeFilterSlot | txSlotBusy | noNewData | btUnsatisfiable | modeUnsupported
  deriving DecidableEq, Repr

/-- The result of tx_status (R206). -/
inductive TxState where
  | idle | available | busy
  deriving DecidableEq, Repr

/-- What a call returned to its context (R15, R263, and each procedure's rule). -/
inductive Ret where
  /-- Nothing has returned yet. -/
  | nothing
  /-- OK. -/
  | ok
  /-- 1, or a slot handle. -/
  | value (n : Nat)
  /-- The value 0, with the failure it is (R263). -/
  | fail (c : FailCode)
  /-- Stall (R263, code 6). -/
  | stall
  /-- receive's (1, frame), and unpack_rx's frame. -/
  | frame (f : Frame)
  /-- tx_status. -/
  | tx (t : TxState)
  /-- The error counters. -/
  | byte (b : Byte)
  /-- bt_calc's timing word. -/
  | timing (w : BitVec 32)
  /-- pack_filter's four words. -/
  | filterWords (msk1 msk2 arb1 arb2 : Word)
  /-- pack_tx's nine words. -/
  | txWords (msk1 msk2 arb1 arb2 mctrl da1 da2 db1 db2 : Word)
  deriving DecidableEq, Repr

/-- Callback events (R279). -/
inductive Event where
  | rx | tx | busOff | errorWarning | errorPassive | rxOk | txOk
  deriving DecidableEq, Repr

/-- A step of the protocol engine with the draws it takes (R266): which object, which frame, the last error code, the identifier
bits below ID[18] of a standard frame, and the drawn interrupt gates (used while PE_STRICT is false; DEDUCED, log entry 27). -/
inductive PeEvent where
  | initAck
  | txDone (n : Slot) (lec : BitVec 3) (gTx gS : Bool)
  | rxStore (n : Slot) (f : Frame) (lec : BitVec 3) (low : BitVec 18) (gRx gS : Bool)
  | remoteReq (n : Slot) (gS : Bool)
  | error (ec : Word) (boff ewarn epass : Bool) (lec : BitVec 3) (gE : Bool)
  deriving DecidableEq, Repr

/-- Which agent moves (R9): the running host context, the start of a dispatch by HOST_IRQ, XFER_k, or the protocol engine. -/
inductive Turn where
  | host
  | irq
  | xfer (k : IfId)
  | pe (e : PeEvent)
  deriving DecidableEq, Repr

/-- The OPEN parameters of R8 and R71: CLK_HZ, MAX_SPIN (none is INF), TEMPLATE_VALID, PE_STRICT and BASE. -/
structure Params where
  clkHz : Nat
  maxSpin : Option Nat
  templateValid : Bool
  peStrict : Bool
  base : Nat
  deriving DecidableEq, Repr, Inhabited

/-- The interface a name selects. -/
def Block.iface (b : Block) : IfId → Iface
  | .if1 => b.if1
  | .if2 => b.if2

/-- The block with one interface replaced. -/
def Block.setIface (b : Block) (k : IfId) (f : Iface) : Block :=
  match k with
  | .if1 => { b with if1 := f }
  | .if2 => { b with if2 := f }

/-- The message object at a place (R20). -/
def Block.obj (b : Block) (n : Slot) : Obj := b.objs[n]

/-- The block with one message object replaced. -/
def Block.setObj (b : Block) (n : Slot) (o : Obj) : Block :=
  { b with objs := b.objs.set n.val o n.isLt }

end Sys2Proof.Machine
end

