-- ==== Sys2Proof/Config.lean ====
section
/-! DEFINITION. The free values: what the spec calls a draw (R12), and its OPEN parameters (R8). Each is an opaque constant without a
body, so no proof can evaluate it. -/

namespace Sys2Proof

/-- The bits of a read that the spec leaves open (R38, R39, R73, R154), one fresh word for each counter value (DESIGN CHOICE,
log entry 3). -/
opaque Config.freeWord : Nat → Word

/-- The block's contents after a reset, before the fields R300 fixes are set (R300: every other field is a draw; log entry 3). -/
opaque Config.freeBlock : Nat → Machine.Block

/-- Which agents move next, and with which draws (R9: any enabled step of any agent may come next; DESIGN CHOICE, log
entry 1). -/
opaque Config.freeTurns : Nat → List Machine.Turn

/-- The OPEN parameters (R8, R71; DESIGN CHOICE, log entry 4). -/
opaque Config.params : Machine.Params

end Sys2Proof
end

