-- ==== Sys2Proof/Machine/State.lean ====
section
/-! DEFINITION. The machine's state as plain data: the block, its clock and reset inputs, the model's marks, the host side (registration,
the two contexts, their programs) and the schedule; the reasons a step stops; the state after reset. -/

namespace Sys2Proof.Machine

/-- Why a step stops as stuck (R11: no step of the agent is enabled). All are safe: the spec gives the agent no step there
(DEDUCED, log entry 5). -/
inductive Fault where
  /-- A bus transaction while the clock is off or reset is asserted has no step (R140, R305). Raised by every RD and WR meaning, and by
  step when the running host context's next action is such a transaction. Safe. -/
  | notAdmitted
  /-- XFER_k has no enabled step: the interface is idle, or the block is gated (R160). Raised by the XFER_WR and XFER_RD meanings. Safe. -/
  | xferNotEnabled (k : IfId)
  /-- HOST_IRQ may not start a dispatch: line, enable, or a dispatch already running (R271). Raised by the DISPATCH meaning. Safe. -/
  | dispatchNotEnabled
  deriving DecidableEq, Repr

/-- Why a step is refused. -/
inductive Refusal where
  /-- An instruction without a meaning yet; raised by exec's arms only. Safe. -/
  | notModelled (mnemonic : String)
  /-- The machine was refused before and takes no further step (R11, R261); raised by step. Safe: it is the spec's own end of a run
  (DEDUCED, log entry 21). -/
  | afterRefusal
  deriving DecidableEq, Repr

/-- What a host context issues: a BUS word, an access of another width at a bus address (R73, R75), a call, or an environment action
on the clock or the reset input (R14, R293, R305). -/
inductive HostOp where
  | word (t : BitVec 32)
  | access (width : AccessWidth) (write : Bool) (addr : Nat) (data : BitVec 32)
  | call (i : Instr)
  | envClock (b : Bool)
  | envReset (b : Bool)
  deriving DecidableEq, Repr

/-- What a procedure does with the value of a read, before its next transaction. Each names the pseudocode it continues. -/
inductive Cont where
  /-- The value is only returned to the host. -/
  | done
  /-- SET_CNTL m (R230). -/
  | setCntl (m : Word)
  /-- CLR_CNTL m (R230). -/
  | clrCntl (m : Word)
  /-- ENABLE (R231). -/
  | enable
  /-- CLR_TXOK and CLR_RXOK, with the mask of the bits kept (R203, R218). -/
  | clrStat (keep : Word)
  /-- set_bitrate with the timing word w (R130); inInit when init runs it and ignores its result (R233;
  DEDUCED, log entry 16). -/
  | setBitrate (w : BitVec 32) (inInit : Bool)
  /-- install_filter after RD MSGV1 (R193). -/
  | filterLo (id mask : Nat) (fmt : Fmt)
  /-- install_filter after RD MSGV2 (R193). -/
  | filterHi (v1 : Word) (id mask : Nat) (fmt : Fmt)
  /-- send after RD TXREQ2 (R204). -/
  | sendPending (f : Frame)
  /-- tx_status (R206). -/
  | txStatus
  /-- receive after RD ND1 (R219). -/
  | receiveLo
  /-- receive after RD ND2 (R219). -/
  | receiveHi (v1 : Word)
  /-- receive's staging reads, with the words read so far (R219 step 4). -/
  | receiveWords (ws : List Word)
  /-- rx_error_count (R222). -/
  | rxErr
  /-- tx_error_count (R222). -/
  | txErr
  /-- monitor(on) after RD TEST (R239). -/
  | monitorOn
  /-- monitor(off) after RD CNTL (R239). -/
  | monitorOff
  /-- monitor(off) after RD TEST, with the CNTL value read before (R239, R313; R240 item 3: log entry 28). -/
  | monitorOffTest (v : Word)
  /-- dispatch after RD INT (R280). -/
  | dispatch
  /-- dispatch after RD STAT (R280). -/
  | notify
  deriving DecidableEq, Repr

/-- The registration (R45). -/
structure Registration where
  cb : Option Nat
  token : Option Nat
  rxEn : Bool
  txEn : Bool
  deriving DecidableEq, Repr

/-- One action of a host procedure (R14, R15): at most one bus transaction each. -/
inductive Micro where
  /-- RD r, then what the procedure does with the value. -/
  | rd (r : Reg) (k : Cont)
  /-- A 32-bit read of r (R73). -/
  | rdWide (r : Reg)
  /-- WR r, v. -/
  | wr (r : Reg) (v : Word)
  /-- SPIN k after i failing polls (R170). -/
  | spinBusy (k : IfId) (i : Nat)
  /-- The wait for CNTL.INIT to read 0 after i failing polls (R130, R231, R233); inInit when a Stall ends only set_bitrate inside init. -/
  | spinInit (i : Nat) (inInit : Bool)
  /-- env_clock(b) (R14). -/
  | envClock (b : Bool)
  /-- env_reset(b) (R14). -/
  | envReset (b : Bool)
  /-- route(rx_pin, tx_pin): an external call without block effect (R233, R234). -/
  | route (rxPin txPin : Nat)
  /-- reg <- r (R276, R277). -/
  | setReg (r : Registration)
  /-- host_ie <- b (R276, R277). -/
  | hostIe (b : Bool)
  /-- The callback of an event, called if a callback is registered and the class, if any, is enabled (R280). -/
  | callback (e : Event) (arg : Word) (cls : Option IrqClass)
  /-- The call returns. -/
  | ret (r : Ret)
  deriving DecidableEq, Repr

/-- A call in progress: a procedure with the actions still to come, or a callback with the operations it still issues. -/
inductive Activation where
  | proc (todo : List Micro)
  | callback (ops : List HostOp)
  deriving DecidableEq, Repr

/-- A host context: its calls in progress (innermost first), the last value a bus read returned to it (16 bits, or 32 for a wide
access), and the last result a call returned to it. -/
structure HostCtx where
  calls : List Activation
  rdata : BitVec 32
  ret : Ret
  deriving DecidableEq, Repr

/-- The two host contexts (R9). -/
inductive CtxId where
  | main | irq
  deriving DecidableEq, Repr

/-- A callback invocation, callback(e, arg) with the registered token (R279). -/
structure Delivery where
  cb : Nat
  token : Option Nat
  event : Event
  arg : Word
  deriving DecidableEq, Repr

/-- The state. -/
structure State where
  /-- The block (R20 to R42). -/
  block : Block
  /-- clk_en (R43). -/
  clkEn : Bool
  /-- rst (R43). -/
  rst : Bool
  /-- The faults recorded, without repeats, never cleared (R44, R262). -/
  faults : List BusFault
  /-- The refusal mark with what it records; none is false (R44, R261). -/
  refused : Option RefusalMark
  /-- reg (R45). -/
  reg : Registration
  /-- host_ie (R271). -/
  hostIe : Bool
  /-- HOST_MAIN's context. -/
  main : HostCtx
  /-- HOST_IRQ's context; a dispatch is running exactly while it has calls. -/
  irq : HostCtx
  /-- The callback invocations made, oldest first (R279). -/
  delivered : List Delivery
  /-- What HOST_MAIN issues next (R102: the host's own order). The model's own field (log entry 6). -/
  program : List HostOp
  /-- What the next callbacks issue, one list each (R279). The model's own field (log entry 8). -/
  callbackPrograms : List (List HostOp)
  /-- The turns still to come (R9). The model's own field (log entry 1). -/
  turns : List Turn
  /-- The counter of free values taken. The model's own field (log entry 3). -/
  fresh : Nat
  /-- The OPEN parameters (R8). The model's own field: no step changes it (log entry 4). -/
  params : Params
  deriving DecidableEq, Repr

/-- An idle context. -/
def HostCtx.idle : HostCtx := { calls := [], rdata := 0#32, ret := .nothing }

/-- The registration before any call (R45). -/
def Registration.empty : Registration := { cb := none, token := none, rxEn := false, txEn := false }

/-- A message object with every field 0: the named value of R23's draws (DESIGN CHOICE, log entry 2). -/
def Obj.zero : Obj where
  msgval := false
  xtd := false
  dir := false
  id := 0#29
  mxtd := false
  mdir := false
  msk := 0#29
  newdat := false
  msglst := false
  intpnd := false
  umask := false
  txie := false
  rxie := false
  rmten := false
  txrqst := false
  eob := false
  dlc := 0#4
  data := #v[0#8, 0#8, 0#8, 0#8, 0#8, 0#8, 0#8, 0#8]

/-- An idle interface with every register 0 (R32; DESIGN CHOICE, log entry 2). -/
def Iface.zero : Iface where
  busy := false
  slot := 0
  cmd := 0#8
  msgnum := 0#6
  cmdmsk := 0#8
  msk1 := 0#16
  msk2 := 0#16
  arb1 := 0#16
  arb2 := 0#16
  mctrl := 0#16
  da1 := 0#16
  da2 := 0#16
  db1 := 0#16
  db2 := 0#16

/-- The block as State.reset holds it: INIT = 1, BUSY = 0, stat_int = 0, init_pending = 0 (R300), every draw named 0 (log entry 2). -/
def Block.zero : Block where
  cntl := { test := false, cce := false, dar := false, eie := false, sie := false, ie := false, init := true }
  stat := { boff := false, ewarn := false, epass := false, rxok := false, txok := false, lec := 0#3 }
  ec := 0#16
  bt := 0#15
  clkdiv := 0#16
  test := { lback := false, silent := false }
  if1 := Iface.zero
  if2 := Iface.zero
  objs := Vector.replicate 32 Obj.zero
  statInt := false
  initPending := false

/-- Power-up (R301): the clock off, reset asserted, the block in its reset state, the registration empty, host_ie false, no fault and
no refusal. No program is loaded; the parameters are open. -/
def State.reset : State where
  block := Block.zero
  clkEn := false
  rst := true
  faults := []
  refused := none
  reg := Registration.empty
  hostIe := false
  main := HostCtx.idle
  irq := HostCtx.idle
  delivered := []
  program := []
  callbackPrograms := []
  turns := []
  fresh := 0
  params := Config.params

end Sys2Proof.Machine
end

