-- ==== Sys2Proof/Machine/Operands.lean ====
section
/-! DEFINITION. Operand forms (R95): bit fields, the register words of 10_state.md, and the packing functions of filters, frames and
message-object parts. -/

namespace Sys2Proof.Machine

/-! ### Fields of a word -/

/-- The value x placed with its bit 0 at bit lo of a w-bit word (R13). -/
def field {w : Nat} (lo : Nat) {n : Nat} (x : BitVec n) : BitVec w := x.setWidth w <<< lo

/-- A single bit placed at bit lo. -/
def flag {w : Nat} (lo : Nat) (b : Bool) : BitVec w := field lo (BitVec.ofBool b)

/-- The n-bit word whose bit i is f i. -/
def wordOfBits (f : Nat → Bool) : (n : Nat) → BitVec n
  | 0 => 0#0
  | n + 1 => BitVec.cons (f n) (wordOfBits f n)

/-! ### Reserved bits (R38): the bits of a register word that are no defined field -/

/-- The bits of a register that no read defines (R38, and TEST.RX, which is always a draw, R39). -/
def reservedBits : Reg → Word
  | .cntl => 0xFF10#16
  | .stat => 0xFF00#16
  | .bt => 0x8000#16
  | .test => 0xFF83#16
  | .iface _ .cmdreq => 0x7FC0#16
  | .iface _ .cmdmsk => 0xFF00#16
  | .iface _ .msk2 => 0x2000#16
  | .iface _ .mctrl => 0x0070#16
  | _ => 0#16

/-! ### Register words -/

/-- CNTL as a read shows it, INIT being the acknowledged value (R33, R148). -/
def cntlWord (c : Cntl) (initRead : Bool) : Word :=
  flag 7 c.test ||| flag 6 c.cce ||| flag 5 c.dar ||| flag 3 c.eie ||| flag 2 c.sie ||| flag 1 c.ie ||| flag 0 initRead

/-- STAT (R34, R142). -/
def statWord (s : Stat) : Word :=
  flag 7 s.boff ||| flag 6 s.ewarn ||| flag 5 s.epass ||| flag 4 s.rxok ||| flag 3 s.txok ||| field 0 s.lec

/-- TEST's defined bits (R39, R149): BASIC and TX read 0. -/
def testWord (t : TestBits) : Word := flag 4 t.lback ||| flag 3 t.silent

/-- CMDREQ (R26, R151). -/
def cmdreqWord (f : Iface) : Word := flag 15 f.busy ||| field 0 f.msgnum

/-- The MSK2 word of an object (R27). -/
def objMsk2 (o : Obj) : Word := flag 15 o.mxtd ||| flag 14 o.mdir ||| field 0 (o.msk.extractLsb' 16 13)

/-- The ARB2 word of an object (R28). -/
def objArb2 (o : Obj) : Word :=
  flag 15 o.msgval ||| flag 14 o.xtd ||| flag 13 o.dir ||| field 0 (o.id.extractLsb' 16 13)

/-- The MCTRL word of an object (R29). -/
def objMctrl (o : Obj) : Word :=
  flag 15 o.newdat ||| flag 14 o.msglst ||| flag 13 o.intpnd ||| flag 12 o.umask ||| flag 11 o.txie ||| flag 10 o.rxie |||
    flag 9 o.rmten ||| flag 8 o.txrqst ||| flag 7 o.eob ||| field 0 o.dlc

/-- A little-endian byte pair: the lower-numbered byte in bits 7:0 (R30, R72). -/
def bytePair (lower higher : Byte) : Word := field 8 higher ||| field 0 lower

/-- Bits 7:0 of a data register (R30). -/
def lowerByte (w : Word) : Byte := w.extractLsb' 0 8

/-- Bits 15:8 of a data register (R30). -/
def higherByte (w : Word) : Byte := w.extractLsb' 8 8

/-- A 29-bit identifier or mask from its two words (R27, R28, R74). -/
def join29 (w2 w1 : Word) : BitVec 29 := field 16 (w2.extractLsb' 0 13) ||| field 0 w1

/-! ### Packing -/

/-- The words of a message object, in staging-register order (R24). -/
structure ObjWords where
  msk1 : Word
  msk2 : Word
  arb1 : Word
  arb2 : Word
  mctrl : Word
  da1 : Word
  da2 : Word
  db1 : Word
  db2 : Word
  deriving DecidableEq, Repr

/-- Identifier bits 28:16 of a natural, at bits 12:0. -/
def identHigh (n : Nat) : Word := field 0 ((BitVec.ofNat 29 n).extractLsb' 16 13)

/-- Identifier bits 15:0 of a natural. -/
def identLow (n : Nat) : Word := BitVec.ofNat 16 n

/-- An 11-bit identifier or mask shifted left by 2 (R28, R190). -/
def identStd (n : Nat) : Word := field 2 (BitVec.ofNat 11 n)

/-- MSK1 of pack_filter (R190). -/
def filterMsk1 (mask : Nat) : Fmt → Word
  | .ext => identLow mask
  | .std => 0#16

/-- MSK2 of pack_filter (R190). -/
def filterMsk2 (mask : Nat) : Fmt → Word
  | .ext => 0x8000#16 ||| identHigh mask
  | .std => identStd mask

/-- ARB1 of pack_filter, and of pack_tx (R190, R200). -/
def packArb1 (id : Nat) : Fmt → Word
  | .ext => identLow id
  | .std => 0#16

/-- ARB2 of pack_filter (R190). -/
def filterArb2 (id : Nat) : Fmt → Word
  | .ext => 0x8000#16 ||| 0x4000#16 ||| identHigh id
  | .std => 0x8000#16 ||| identStd id

/-- The filter control word UMASK | EOB | 8 (R191). -/
def filterMctrl : Word := 0x1088#16

/-- The DIR bit of a frame's ARB2: 1 for a remote frame (R200). -/
def dirBit : FrameType → Word
  | .remote => 0x2000#16
  | .data => 0#16

/-- ARB2 of pack_tx (R200). -/
def txArb2 (f : Frame) : Word :=
  match f.fmt with
  | .ext => 0x8000#16 ||| 0x4000#16 ||| dirBit f.type ||| identHigh f.id
  | .std => 0x8000#16 ||| dirBit f.type ||| identStd f.id

/-- MSK2 of pack_tx: MXTD for an extended frame (R200). -/
def txMsk2 : Fmt → Word
  | .ext => 0x8000#16
  | .std => 0#16

/-- pack_tx (R200, R201). -/
def packTx (f : Frame) : ObjWords where
  msk1 := 0#16
  msk2 := txMsk2 f.fmt
  arb1 := packArb1 f.id f.fmt
  arb2 := txArb2 f
  mctrl := 0x1180#16 ||| BitVec.ofNat 16 f.len
  da1 := bytePair f.data[0] f.data[1]
  da2 := bytePair f.data[2] f.data[3]
  db1 := bytePair f.data[4] f.data[5]
  db2 := bytePair f.data[6] f.data[7]

/-- The eight bytes of the four data words (R216). -/
def bytesOf (da1 da2 db1 db2 : Word) : Vector Byte 8 :=
  #v[lowerByte da1, higherByte da1, lowerByte da2, higherByte da2, lowerByte db1, higherByte db1, lowerByte db2, higherByte db2]

/-- unpack_rx (R215, R216). -/
def unpackRx (arb1 arb2 mctrl da1 da2 db1 db2 : Word) : Frame where
  id := if arb2.getLsbD 14 then (join29 arb2 arb1).toNat else (arb2.extractLsb' 2 11).toNat
  fmt := if arb2.getLsbD 14 then .ext else .std
  type := if arb2.getLsbD 13 then .remote else .data
  len := (mctrl.extractLsb' 0 4).toNat
  data := bytesOf da1 da2 db1 db2

end Sys2Proof.Machine
end

