-- ==== Sys2Proof/Machine/BitTiming.lean ====
section
/-! DEFINITION. The bit-timing calculator (40_bit_timing.md R120 to R131): a pure function over naturals. -/

namespace Sys2Proof.Machine

/-- CLKDIV_VALUE (R8). -/
def clkdivValue : Nat := 0

/-- DEFAULT_BITRATE (R8). -/
def defaultBitrate : Nat := 100000

/-- DEFAULT_RJW (R8). -/
def defaultRjw : Nat := 0

/-- TSEG_TABLE: the (TSEG1, TSEG2) pair of each segment count 1 to 22 (R124, the spec's reconstruction D23; DESIGN CHOICE, log
entry 13). -/
def tsegTable : Nat → Nat × Nat
  | 1 => (1, 0)
  | 2 => (2, 0)
  | 3 => (3, 0)
  | 4 => (3, 1)
  | 5 => (4, 1)
  | 6 => (5, 1)
  | 7 => (6, 1)
  | 8 => (6, 2)
  | 9 => (7, 2)
  | 10 => (8, 2)
  | 11 => (9, 2)
  | 12 => (9, 3)
  | 13 => (10, 3)
  | 14 => (11, 3)
  | 15 => (12, 3)
  | 16 => (12, 4)
  | 17 => (13, 4)
  | 18 => (14, 4)
  | 19 => (15, 4)
  | 20 => (15, 5)
  | 21 => (15, 6)
  | 22 => (15, 7)
  | _ => (0, 0)

/-- The inner search: the first s in n, n - 1, ..., 1 with (s + 3) * (p + 1) = bw (R120, R122). -/
def searchSegments (bw p : Nat) : Nat → Option Nat
  | 0 => none
  | s + 1 => if (s + 1 + 3) * (p + 1) = bw then some (s + 1) else searchSegments bw p s

/-- The outer search: the first pair over p, p + 1, ... for n prescalers (R120, R122). -/
def searchPrescaler (bw : Nat) : Nat → Nat → Option (Nat × Nat)
  | _, 0 => none
  | p, n + 1 =>
    match searchSegments bw p 22 with
    | some s => some (p, s)
    | none => searchPrescaler bw (p + 1) n

/-- The timing word of a pair, as a natural (R127). -/
def timingValue (p s rjw : Nat) : Nat :=
  clkdivValue * 2 ^ 16 + (tsegTable s).2 * 2 ^ 12 + (tsegTable s).1 * 2 ^ 8 + rjw * 2 ^ 6 + p

/-- bt_calc for rjw in 0..3 (R120): 0 is the invalid result (R121, R126). -/
def btCalc (clk rate rjw : Nat) : BitVec 32 :=
  if rate = 0 then 0#32
  else
    let bw := clk / rate
    match searchPrescaler bw (bw / 24) (bw / 4 - bw / 24) with
    | none => 0#32
    | some (p, s) => if p > 63 then 0#32 else BitVec.ofNat 32 (timingValue p s rjw)

/-- The fields of a timing word (R131). -/
structure BitTiming where
  clkdiv : Nat
  tseg2 : Nat
  tseg1 : Nat
  sjw : Nat
  brp : Nat
  deriving DecidableEq, Repr

/-- bt_decode (R131). -/
def btDecode (w : BitVec 32) : BitTiming where
  clkdiv := (w.extractLsb' 16 16).toNat
  tseg2 := (w.extractLsb' 12 3).toNat
  tseg1 := (w.extractLsb' 8 4).toNat
  sjw := (w.extractLsb' 6 2).toNat
  brp := (w.extractLsb' 0 6).toNat

/-- The bit period in system clock cycles (R131). -/
def bitPeriod (t : BitTiming) : Nat := (t.tseg1 + t.tseg2 + 3) * (t.brp + 1) * (t.clkdiv + 1)

/-- The sample point, as the part of the bit period before the sample (R125, R131). -/
def samplePoint (t : BitTiming) : Rat := (t.tseg1 + 2 : Nat) / (t.tseg1 + t.tseg2 + 3 : Nat)

/-- The BT register value of a timing word (R127). -/
def timingBt (w : BitVec 32) : Word := w.extractLsb' 0 16

/-- The CLKDIV register value of a timing word (R127). -/
def timingClkdiv (w : BitVec 32) : Word := w.extractLsb' 16 16

end Sys2Proof.Machine
end

