-- ==== Sys2Proof/Machine/Flags.lean ====
section
/-! DEFINITION. Flags and derived values (R40, R41, R46, R48, R270): bitmaps, the interrupt identifier and line, the controller mode,
and whether the block's agents may step. -/

namespace Sys2Proof.Machine

/-- The first slot of a bitmap register: 1 or 17, as a place (R41). -/
def Half.base : Half → Nat
  | .lo => 0
  | .hi => 16

/-- One register of a status bitmap: bit i belongs to the object at place base + i (R41). -/
def Block.bitmap (b : Block) (h : Half) (f : Obj → Bool) : Word :=
  wordOfBits (fun i => if p : Half.base h + i < 32 then f (b.obj ⟨Half.base h + i, p⟩) else false) 16

/-- The least place in n, n + 1, ..., n + fuel - 1 whose object has INTPND = 1. -/
def Block.leastPending (b : Block) : Nat → Nat → Option Slot
  | _, 0 => none
  | n, fuel + 1 =>
    if h : n < 32 then
      if (b.obj ⟨n, h⟩).intpnd then some ⟨n, h⟩ else b.leastPending (n + 1) fuel
    else none

/-- INT (R40): 0x8000 while stat_int is set, else the least slot with INTPND, else 0. -/
def Block.intWord (b : Block) : Word :=
  if b.statInt then 0x8000#16
  else
    match b.leastPending 0 32 with
    | some n => BitVec.ofNat 16 (slotNumber n)
    | none => 0#16

/-- The interrupt output (R270). -/
def Block.irqLine (b : Block) : Bool := b.cntl.ie && b.intWord != 0#16

/-- CNTL.INIT as a read shows it (R42, R148). -/
def Block.initReads (b : Block) : Bool := b.cntl.init || b.initPending

/-- The block takes part in bus traffic: CNTL.INIT reads 0 (R266, "on bus"). -/
def Block.onBus (b : Block) : Bool := !b.initReads

/-- The controller modes (R46). -/
inductive Mode where
  | disabled | normal | silent | loopback | silentLoopback | testOnly
  deriving DecidableEq, Repr

/-- The derived controller mode (R46). -/
def Block.mode (b : Block) : Mode :=
  if b.initReads then .disabled
  else if !b.cntl.test then .normal
  else
    match b.test.silent, b.test.lback with
    | true, false => .silent
    | false, true => .loopback
    | true, true => .silentLoopback
    | false, false => .testOnly

/-- Bus transactions are admitted, and XFER_k and PE steps enabled, only with the clock on and reset released (R43, R305). -/
def State.admitted (s : State) : Bool := s.clkEn && !s.rst

/-- The running host context: HOST_IRQ while a dispatch is running, else HOST_MAIN (R10, R271). -/
def State.running (s : State) : CtxId := if s.irq.calls.isEmpty then .main else .irq

/-- HOST_IRQ may start a dispatch (R271). -/
def State.mayDispatch (s : State) : Bool := s.block.irqLine && s.hostIe && s.irq.calls.isEmpty

/-- XFER_k has an enabled step (R160). -/
def State.xferEnabled (s : State) (k : IfId) : Bool := (s.block.iface k).busy && s.admitted

/-- The code of a recorded fault (R262). -/
def BusFault.code : BusFault → Nat
  | .badMsgnum _ _ => 16
  | .ifBusy _ _ => 17
  | .protectedWrite _ _ => 18
  | .unmodelledTest _ => 19

/-- The code of a refusal (R261). -/
def RefusalMark.code : RefusalMark → Nat
  | .badOffset _ => 32
  | .badWidth _ => 33
  | .roWrite _ => 34
  | .argDomain _ _ => 35

/-- The code of a failure result (R263). -/
def FailCode.code : FailCode → Nat
  | .noFreeFilterSlot => 1
  | .txSlotBusy => 2
  | .noNewData => 3
  | .btUnsatisfiable => 4
  | .modeUnsupported => 5

end Sys2Proof.Machine
end

