-- ==== Sys2Proof/Machine/Ops.lean ====
section
/-! DEFINITION. The named operations over the state: bus reads and writes of registers (41_transactor.md), transfers (R160 to R169),
reset and clock inputs (R300, R305), the marks (R261, R262), and the host contexts with the taking of and return from the interrupt
(R270 to R274). -/

namespace Sys2Proof.Machine

/-! ### Updates of one part of the state -/

/-- The state with another block. -/
def State.withBlock (s : State) (b : Block) : State := { s with block := b }

/-- The state with k more free values taken. -/
def State.spend (s : State) (k : Nat) : State := { s with fresh := s.fresh + k }

/-- A context of the state. -/
def State.ctx (s : State) : CtxId → HostCtx
  | .main => s.main
  | .irq => s.irq

/-- The state with one context replaced. -/
def State.setCtx (s : State) (c : CtxId) (x : HostCtx) : State :=
  match c with
  | .main => { s with main := x }
  | .irq => { s with irq := x }

/-- The state with the schedule replaced. -/
def State.withTurns (s : State) (ts : List Turn) : State := { s with turns := ts }

/-- A bus read's value is returned to the running context (R92: outside the word). -/
def State.returnRead (s : State) (w : BitVec 32) : State :=
  s.setCtx s.running { s.ctx s.running with rdata := w }

/-- A call's result is returned to the running context (R15). -/
def State.returnCall (s : State) (r : Ret) : State :=
  s.setCtx s.running { s.ctx s.running with ret := r }

/-- A fault is recorded and the run goes on: nothing else changes (R262, R264). The marks hold no repeats (R44: a set;
DESIGN CHOICE, log entry 22). -/
def State.recordFault (s : State) (f : BusFault) : State :=
  if s.faults.contains f then s else { s with faults := s.faults ++ [f] }

/-- A refusal sets the state-wide mark (R261). -/
def State.refuse (s : State) (m : RefusalMark) : State := { s with refused := some m }

/-! ### Bus reads -/

/-- A staging register's stored word, or the command mask's (R154). -/
def Iface.stored (f : Iface) : IfReg → Word
  | .cmdreq => cmdreqWord f
  | .cmdmsk => f.cmdmsk.setWidth 16
  | .msk1 => f.msk1
  | .msk2 => f.msk2
  | .arb1 => f.arb1
  | .arb2 => f.arb2
  | .mctrl => f.mctrl
  | .da1 => f.da1
  | .da2 => f.da2
  | .db1 => f.db1
  | .db2 => f.db2

/-- An interface register is mid-transfer: every bit of its read is a draw, but for CMDREQ's (R151, R154). -/
def Block.midTransfer (b : Block) (k : IfId) (x : IfReg) : Bool := (b.iface k).busy && x != .cmdreq

/-- The bits the spec defines of a read of a register, the others 0 (R142, R148, R149, R151, R154). -/
def Block.known (b : Block) : Reg → Word
  | .cntl => cntlWord b.cntl b.initReads
  | .stat => statWord b.stat
  | .ec => b.ec
  | .bt => b.bt.setWidth 16
  | .int => b.intWord
  | .test => if b.cntl.test then testWord b.test else 0#16
  | .iface k x => if b.midTransfer k x then 0#16 else (b.iface k).stored x
  | .txreq h => b.bitmap h (·.txrqst)
  | .nd h => b.bitmap h (·.newdat)
  | .ir h => b.bitmap h (·.intpnd)
  | .msgv h => b.bitmap h (·.msgval)
  | .clkdiv => b.clkdiv

/-- The bits of a read that are draws: the reserved bits (R38), TEST's bits 4:2 while CNTL.TEST = 0 (R39), all bits of a register
that is mid-transfer (R154). -/
def Block.openBits (b : Block) (r : Reg) : Word :=
  match r with
  | .test => if b.cntl.test then reservedBits .test else reservedBits .test ||| 0x001C#16
  | .iface k x => if b.midTransfer k x then 0xFFFF#16 else reservedBits (.iface k x)
  | r => reservedBits r

/-- The word a read returns, with the free word given: draws in the open bits (R140, R38). -/
def Block.readWord (b : Block) (free : Word) (r : Reg) : Word :=
  (b.known r &&& ~~~ b.openBits r) ||| (free &&& b.openBits r)

/-- The word a procedure uses: that same read with the reserved bits masked off (R38: every rule that uses a read value masks them
off). Where only reserved bits are open, it is the defined bits (DEDUCED, log entry 11). -/
def Block.usedWord (b : Block) (free : Word) (r : Reg) : Word :=
  if b.openBits r = reservedBits r then b.known r &&& ~~~ reservedBits r else b.readWord free r &&& ~~~ reservedBits r

/-- The word the next read of a register returns (R140). -/
def State.readWord (s : State) (r : Reg) : Word := s.block.readWord (Config.freeWord s.fresh) r

/-- That word as a procedure uses it (R38). -/
def State.usedWord (s : State) (r : Reg) : Word := s.block.usedWord (Config.freeWord s.fresh) r

/-- What a read of a register changes in the block: STAT's clears stat_int (R142); no other read changes anything (R78). -/
def Block.afterRead (b : Block) (r : Reg) : Block :=
  if r = .stat then { b with statInt := false } else b

/-- A 16-bit bus read by the running context. -/
def State.hostRead (s : State) (r : Reg) : State :=
  ((s.returnRead ((s.readWord r).setWidth 32)).withBlock (s.block.afterRead r)).spend 1

/-- A 32-bit bus read: bits 31:16 are a draw (R73). -/
def State.hostReadWide (s : State) (r : Reg) : State :=
  ((s.returnRead (Config.freeWord (s.fresh + 1) ++ s.readWord r)).withBlock (s.block.afterRead r)).spend 2

/-! ### Bus writes -/

/-- What a write of a register does to the block: it is stored, or it is a fault and changes nothing. -/
inductive WriteOut where
  | stored (b : Block)
  | fault (f : BusFault)
  deriving DecidableEq, Repr

/-- The place of a slot number 1..32 (R150). -/
def slotOfNumber (n : Nat) : Option Slot :=
  if h : 1 ≤ n ∧ n ≤ 32 then some ⟨n - 1, by omega⟩ else none

/-- WR CNTL (R147). -/
def Block.writeCntl (b : Block) (v : Word) : Block :=
  let init' := if v.getLsbD 0 then true else false
  let pending' := if v.getLsbD 0 then false else if b.cntl.init then true else b.initPending
  { b with
    cntl := { test := v.getLsbD 7, cce := v.getLsbD 6, dar := v.getLsbD 5, eie := v.getLsbD 3, sie := v.getLsbD 2,
              ie := v.getLsbD 1, init := init' }
    initPending := pending' }

/-- WR STAT (R143). -/
def Block.writeStat (b : Block) (v : Word) : Block :=
  { b with stat := { b.stat with
    txok := b.stat.txok && v.getLsbD 3
    rxok := b.stat.rxok && v.getLsbD 4
    lec := v.extractLsb' 0 3 } }

/-- WR BT (R144). -/
def Block.writeBt (b : Block) (v : Word) : WriteOut :=
  if b.cntl.init && b.cntl.cce then .stored { b with bt := v.extractLsb' 0 15 }
  else .fault (.protectedWrite .bt v)

/-- WR CLKDIV (R145). -/
def Block.writeClkdiv (b : Block) (v : Word) : WriteOut :=
  if b.cntl.init then .stored { b with clkdiv := v } else .fault (.protectedWrite .clkdiv v)

/-- WR TEST (R146). -/
def Block.writeTest (b : Block) (v : Word) : WriteOut :=
  if !b.cntl.test then .fault (.protectedWrite .test v)
  else if v.getLsbD 2 || v.getLsbD 6 || v.getLsbD 5 then .fault (.unmodelledTest v)
  else .stored { b with test := { lback := v.getLsbD 4, silent := v.getLsbD 3 } }

/-- A staging register or the command mask with a value stored in its defined bits (R152, R153). -/
def Iface.store (f : Iface) (x : IfReg) (v : Word) : Iface :=
  match x with
  | .cmdreq => f
  | .cmdmsk => { f with cmdmsk := v.extractLsb' 0 8 }
  | .msk1 => { f with msk1 := v }
  | .msk2 => { f with msk2 := v &&& 0xDFFF#16 }
  | .arb1 => { f with arb1 := v }
  | .arb2 => { f with arb2 := v }
  | .mctrl => { f with mctrl := v &&& 0xFF8F#16 }
  | .da1 => { f with da1 := v }
  | .da2 => { f with da2 := v }
  | .db1 => { f with db1 := v }
  | .db2 => { f with db2 := v }

/-- The interface with a transfer started (R150): slot and command are latched, BUSY is set. -/
def Iface.start (f : Iface) (n : Slot) (num : BitVec 6) : Iface :=
  { f with busy := true, slot := n, cmd := f.cmdmsk, msgnum := num }

/-- WR IFk_x (R150, R152, R153). -/
def Block.writeIface (b : Block) (k : IfId) (x : IfReg) (v : Word) : WriteOut :=
  if (b.iface k).busy then .fault (.ifBusy k x)
  else
    match x with
    | .cmdreq =>
      match slotOfNumber (v.extractLsb' 0 6).toNat with
      | none => .fault (.badMsgnum k (v.extractLsb' 0 6))
      | some n => .stored (b.setIface k ((b.iface k).start n (v.extractLsb' 0 6)))
    | x => .stored (b.setIface k ((b.iface k).store x v))

/-- A write of a register (R141). A read-only register has no write operation (R76: the decoder refuses it); nothing is stored. -/
def Block.writeReg (b : Block) (r : Reg) (v : Word) : WriteOut :=
  match r with
  | .cntl => .stored (b.writeCntl v)
  | .stat => .stored (b.writeStat v)
  | .bt => b.writeBt v
  | .test => b.writeTest v
  | .iface k x => b.writeIface k x v
  | .clkdiv => b.writeClkdiv v
  | .ec | .int | .txreq _ | .nd _ | .ir _ | .msgv _ => .stored b

/-- A bus write by a host context. -/
def State.hostWrite (s : State) (r : Reg) (v : Word) : State :=
  match s.block.writeReg r v with
  | .stored b => s.withBlock b
  | .fault f => s.recordFault f

/-! ### Transfers -/

/-- The mask part written from the staging registers (R161). -/
def Obj.putMask (o : Obj) (f : Iface) : Obj :=
  { o with msk := join29 f.msk2 f.msk1, mxtd := f.msk2.getLsbD 15, mdir := f.msk2.getLsbD 14 }

/-- The arbitration part (R162). -/
def Obj.putArb (o : Obj) (f : Iface) : Obj :=
  { o with id := join29 f.arb2 f.arb1, msgval := f.arb2.getLsbD 15, xtd := f.arb2.getLsbD 14, dir := f.arb2.getLsbD 13 }

/-- The control part, TXRQST from MCTRL[8] (R163). -/
def Obj.putCtrl (o : Obj) (f : Iface) : Obj :=
  { o with
    newdat := f.mctrl.getLsbD 15, msglst := f.mctrl.getLsbD 14, intpnd := f.mctrl.getLsbD 13, umask := f.mctrl.getLsbD 12,
    txie := f.mctrl.getLsbD 11, rxie := f.mctrl.getLsbD 10, rmten := f.mctrl.getLsbD 9, txrqst := f.mctrl.getLsbD 8,
    eob := f.mctrl.getLsbD 7, dlc := f.mctrl.extractLsb' 0 4 }

/-- Data bytes 0..3 (R166). -/
def Obj.putDataA (o : Obj) (f : Iface) : Obj :=
  { o with data := #v[lowerByte f.da1, higherByte f.da1, lowerByte f.da2, higherByte f.da2,
                      o.data[4], o.data[5], o.data[6], o.data[7]] }

/-- Data bytes 4..7 (R166). -/
def Obj.putDataB (o : Obj) (f : Iface) : Obj :=
  { o with data := #v[o.data[0], o.data[1], o.data[2], o.data[3],
                      lowerByte f.db1, higherByte f.db1, lowerByte f.db2, higherByte f.db2] }

/-- A message object after a write transfer of the selected parts (R161 to R166): TXRQST_NEWDAT sets TXRQST over MCTRL[8] (R164);
CLRINTPND has no effect (R165). -/
def Obj.written (o : Obj) (f : Iface) (p : Parts) : Obj :=
  let o := if p.mask then o.putMask f else o
  let o := if p.arb then o.putArb f else o
  let o := if p.ctrl then o.putCtrl f else o
  let o := if p.txRqstNewDat then { o with txrqst := true } else o
  let o := if p.dataA then o.putDataA f else o
  if p.dataB then o.putDataB f else o

/-- The staging registers after a read transfer of the selected parts (R167); MSK2 bit 13 is reserved and holds nothing (R38;
DEDUCED, log entry 10). -/
def Iface.loaded (f : Iface) (o : Obj) (p : Parts) : Iface :=
  let f := if p.mask then { f with msk1 := o.msk.extractLsb' 0 16, msk2 := objMsk2 o } else f
  let f := if p.arb then { f with arb1 := o.id.extractLsb' 0 16, arb2 := objArb2 o } else f
  let f := if p.ctrl then { f with mctrl := objMctrl o } else f
  let f := if p.dataA then { f with da1 := bytePair o.data[0] o.data[1], da2 := bytePair o.data[2] o.data[3] } else f
  if p.dataB then { f with db1 := bytePair o.data[4] o.data[5], db2 := bytePair o.data[6] o.data[7] } else f

/-- The object after a read transfer's clears (R168). -/
def Obj.cleared (o : Obj) (p : Parts) : Obj :=
  let o := if p.clrIntPnd then { o with intpnd := false } else o
  if p.txRqstNewDat then { o with newdat := false } else o

/-- A write transfer on interface k (R160 to R166): only OBJ[slot] and BUSY change. -/
def Block.writeTransfer (b : Block) (k : IfId) (p : Parts) : Block :=
  let f := b.iface k
  (b.setObj f.slot ((b.obj f.slot).written f p)).setIface k { f with busy := false }

/-- A read transfer on interface k (R160, R167, R168): the copies show the values from before the clears. -/
def Block.readTransfer (b : Block) (k : IfId) (p : Parts) : Block :=
  let f := b.iface k
  let o := b.obj f.slot
  (b.setObj f.slot (o.cleared p)).setIface k { f.loaded o p with busy := false }

/-- The step of XFER_k for a latched command word (R160). -/
def Block.transferDone (b : Block) (k : IfId) (c : Byte) : Block :=
  if c.getLsbD 7 then b.writeTransfer k (partsOf c) else b.readTransfer k (partsOf c)

/-- The step of XFER_k, if it is enabled. -/
def State.xferStep (s : State) (k : IfId) : State :=
  if s.xferEnabled k then s.withBlock (s.block.transferDone k (s.block.iface k).cmd) else s

/-! ### Reset and clock inputs -/

/-- An interface after reset (R300): BUSY 0, the rest as drawn, reserved bits holding nothing. -/
def Iface.afterReset (f : Iface) : Iface :=
  { f with busy := false, msk2 := f.msk2 &&& 0xDFFF#16, mctrl := f.mctrl &&& 0xFF8F#16 }

/-- The block after a reset (R300): INIT 1, BUSY 0, stat_int 0, init_pending 0, every other bit a draw. -/
def Block.afterReset (drawn : Block) : Block :=
  { drawn with
    cntl := { drawn.cntl with init := true }
    if1 := drawn.if1.afterReset
    if2 := drawn.if2.afterReset
    statInt := false
    initPending := false }

/-- env_reset(b): asserting reset sets the reset state at once; releasing it changes nothing else (R300). The marks, the
registration, host_ie and clk_en are not touched. -/
def State.envReset (s : State) (b : Bool) : State :=
  if b then { (s.withBlock (Block.afterReset (Config.freeBlock s.fresh))).spend 1 with rst := true }
  else { s with rst := false }

/-- env_clock(b): the block keeps its state (R293, R305). -/
def State.envClock (s : State) (b : Bool) : State := { s with clkEn := b }

/-! ### Calls in a host context -/

/-- A context whose innermost call has come to its return: the call ends and its result is the context's (R15). -/
def HostCtx.settle (x : HostCtx) : HostCtx :=
  match x.calls with
  | .proc (.ret r :: _) :: rest => { x with calls := rest, ret := r }
  | _ => x

/-- The context's innermost call goes on with these actions. -/
def State.continueCall (s : State) (c : CtxId) (todo : List Micro) (rest : List Activation) : State :=
  s.setCtx c ({ s.ctx c with calls := .proc todo :: rest }).settle

/-- A call begins in a context. -/
def State.beginCall (s : State) (c : CtxId) (todo : List Micro) : State :=
  s.continueCall c todo (s.ctx c).calls

/-- The state in which a callback has these operations still to issue. -/
def State.callbackLeft (s : State) (c : CtxId) (ops : List HostOp) (rest : List Activation) : State :=
  s.setCtx c { s.ctx c with calls := .callback ops :: rest }

/-- A callback ends: its dispatch goes on (R279, R280). -/
def State.endCallback (s : State) (c : CtxId) (rest : List Activation) : State :=
  s.setCtx c ({ s.ctx c with calls := rest }).settle

/-- Taking the interrupt (R273): nothing is saved in the block and no block state changes; HOST_MAIN is suspended where it stands
(it keeps its calls), and control goes to dispatch() in HOST_IRQ. The actions are dispatch's own (R280; DEDUCED, log entry 26). -/
def State.takeInterrupt (s : State) (dispatchActions : List Micro) : State :=
  if s.mayDispatch then s.beginCall .irq dispatchActions else s

/-- The return from a dispatch (R274): HOST_IRQ has no call left, so control is HOST_MAIN's again, at the transaction it was about to
issue; no block state changes. It is what a context's settling does to the dispatch's last action. -/
def State.returnFromInterrupt (s : State) (r : Ret) : State := s.setCtx .irq { s.irq with calls := [], ret := r }

end Sys2Proof.Machine
end

