-- ==== Sys2Proof/Machine/Engine.lean ====
section
/-! DEFINITION. The protocol engine's steps (R266, R267) and the acceptance predicate (R197). -/

namespace Sys2Proof.Machine

/-- The identifier of a frame in ID[28:0] positions (R197, R266): a standard one at bits 28:18. Of an identifier wider than its
format the object takes the bits it has room for (DEDUCED, log entry 9). -/
def frameIdent (f : Frame) : BitVec 29 :=
  match f.fmt with
  | .ext => BitVec.ofNat 29 f.id
  | .std => field 18 (BitVec.ofNat 11 f.id)

/-- The identifier bits a frame of this format carries (R197). -/
def usedIdent : Fmt → BitVec 29
  | .ext => 0x1FFFFFFF#29
  | .std => 0x1FFC0000#29

/-- accepts(n, f) (R197). -/
def Obj.accepts (o : Obj) (f : Frame) : Bool :=
  o.msgval && !o.dir &&
    ((o.id ^^^ frameIdent f) &&& (if o.umask then o.msk else 0x1FFFFFFF#29) &&& usedIdent f.fmt == 0#29) &&
    ((o.umask && !o.mxtd) || o.xtd == (f.fmt == .ext))

/-- The least place in n, ..., n + fuel - 1 whose object accepts the frame. -/
def Block.leastAccepting (b : Block) (f : Frame) : Nat → Nat → Option Slot
  | _, 0 => none
  | n, fuel + 1 =>
    if h : n < 32 then
      if (b.obj ⟨n, h⟩).accepts f then some ⟨n, h⟩ else b.leastAccepting f (n + 1) fuel
    else none

/-- A frame the engine may draw: any frame of R207 with a length of 0..15 (R266). -/
def busFrame (f : Frame) : Bool := decide (f.len ≤ 15)

/-- pe_rx_store may store this frame in this object (R266). -/
def Block.mayStore (b : Block) (strict : Bool) (n : Slot) (f : Frame) : Bool :=
  b.onBus && (b.obj n).msgval && !(b.obj n).dir && busFrame f &&
    (!strict || (b.leastAccepting f 0 32 == some n && f.type == .data))

/-- A gate: drawn while PE_STRICT is false, the enable bit while it is true (R266). -/
def gate (strict drawn enable : Bool) : Bool := if strict then enable else drawn

/-- The object after pe_rx_store (R266). -/
def Obj.received (o : Obj) (strict : Bool) (f : Frame) (low : BitVec 18) (g : Bool) : Obj :=
  { o with
    id := match f.fmt with
      | .ext => frameIdent f
      | .std => frameIdent f ||| field 0 low
    xtd := f.fmt == .ext
    dir := if strict then o.dir else f.type == .remote
    dlc := BitVec.ofNat 4 f.len
    data := f.data
    msglst := o.msglst || o.newdat
    newdat := true
    intpnd := o.intpnd || g }

/-- Whether a protocol-engine step is enabled, the clock and reset apart (R266). -/
def Block.peEnabled (b : Block) (strict : Bool) : PeEvent → Bool
  | .initAck => b.initPending
  | .txDone n _ _ _ => b.onBus && (b.obj n).msgval && (b.obj n).txrqst
  | .rxStore n f _ _ _ _ => b.mayStore strict n f
  | .remoteReq n _ => b.onBus && (b.obj n).msgval && (b.obj n).dir && (b.obj n).rmten
  | .error _ _ _ _ _ _ => true

/-- The effect of a protocol-engine step on the block (R266). -/
def Block.peEffect (b : Block) (strict : Bool) : PeEvent → Block
  | .initAck => { b with initPending := false }
  | .txDone n lec gTx gS =>
    let o := b.obj n
    { b.setObj n { o with txrqst := false, intpnd := o.intpnd || gate strict gTx o.txie } with
      stat := { b.stat with txok := true, lec := lec }
      statInt := b.statInt || gate strict gS b.cntl.sie }
  | .rxStore n f lec low gRx gS =>
    let o := b.obj n
    { b.setObj n (o.received strict f low (gate strict gRx o.rxie)) with
      stat := { b.stat with rxok := true, lec := lec }
      statInt := b.statInt || gate strict gS b.cntl.sie }
  | .remoteReq n gS =>
    { b.setObj n { b.obj n with txrqst := true } with
      statInt := b.statInt || gate strict gS b.cntl.sie }
  | .error ec boff ewarn epass lec gE =>
    { b with
      ec := ec
      stat := { b.stat with boff := boff, ewarn := ewarn, epass := epass, lec := lec }
      cntl := if boff then { b.cntl with init := true } else b.cntl
      initPending := if boff then false else b.initPending
      statInt := b.statInt || gate strict gE b.cntl.eie }

/-- A step of the protocol engine, if it is enabled (R266). -/
def State.peStep (s : State) (e : PeEvent) : State :=
  if s.admitted && s.block.peEnabled s.params.peStrict e then s.withBlock (s.block.peEffect s.params.peStrict e) else s

end Sys2Proof.Machine
end

