-- ==== Sys2Proof/Machine/Plans.lean ====
section
/-! DEFINITION. The host procedures as lists of actions (R15, R100, R101): each is the pseudocode of its rule, one action for each bus
transaction, environment action, registration change or callback; Cont.next gives the actions that follow a read, from its value. -/

namespace Sys2Proof.Machine

/-- The named command words (R99). -/
def cmdFilterWr : Byte := 0xF0#8
def cmdTxWr : Byte := 0xF7#8
def cmdRxRd : Byte := 0x7F#8
def cmdIntclrRd : Byte := 0x0C#8

/-- TX_MSG_OBJ_COUNT (R8). -/
def txMsgObjCount : Nat := 1

/-- transfer(k, n, c) (R171). Step 3 writes the word n whole, so by R150 its low six bits alone name the slot or make the fault: an n of 64
or more whose low six bits are 1..32 transfers that slot, although R171's operand line lets values outside 1..32 fault (DESIGN CHOICE,
log entry 29). -/
def transferPlan (k : IfId) (n : Word) (c : Byte) : List Micro :=
  [.spinBusy k 0, .wr (.iface k .cmdmsk) (c.setWidth 16), .wr (.iface k .cmdreq) n, .spinBusy k 0]

/-- A slot number as the word written to CMDREQ. -/
def slotWord (n : Nat) : Word := BitVec.ofNat 16 n

/-- CLR_TXOK (R203). -/
def clrTxokPlan : List Micro := [.rd .stat (.clrStat 0xFFF7#16)]

/-- CLR_RXOK (R218). -/
def clrRxokPlan : List Micro := [.rd .stat (.clrStat 0xFFEF#16)]

/-- SET_CNTL m (R230). -/
def setCntlPlan (m : Word) : List Micro := [.rd .cntl (.setCntl m)]

/-- CLR_CNTL m (R230). -/
def clrCntlPlan (m : Word) : List Micro := [.rd .cntl (.clrCntl m)]

/-- ENABLE (R231). -/
def enablePlan : List Micro := [.rd .cntl .enable]

/-- The transfers of install_templates to the objects n, n + 1, ... (count of them) (R232). -/
def templateTransfers : Nat → Nat → List Micro
  | _, 0 => []
  | n, count + 1 => transferPlan .if1 (slotWord n) cmdFilterWr ++ templateTransfers (n + 1) count

/-- The ARB2 word of the templates: MSGVAL = TEMPLATE_VALID (R232). -/
def templateArb2 (templateValid : Bool) : Word := if templateValid then 0x8000#16 else 0x0000#16

/-- install_templates (R232), without its return. -/
def templatesPlan (templateValid : Bool) : List Micro :=
  [.wr (.iface .if1 .msk1) 0x0000#16,
   .wr (.iface .if1 .msk2) 0x0000#16,
   .wr (.iface .if1 .arb1) 0x0000#16,
   .wr (.iface .if1 .arb2) (templateArb2 templateValid),
   .wr (.iface .if1 .mctrl) filterMctrl] ++
  templateTransfers 1 31 ++
  [.wr (.iface .if1 .mctrl) 0x1080#16] ++
  transferPlan .if1 (slotWord 32) cmdFilterWr

/-- set_bitrate with the timing word w, not 0 (R130), without its return. -/
def setBitratePlan (w : BitVec 32) (inInit : Bool) : List Micro := [.rd .cntl (.setBitrate w inInit)]

/-- set_bitrate as init's step 4 runs it: nothing if bt_calc gives 0 (R130, R233, R234). -/
def defaultBitratePlan (clkHz : Nat) : List Micro :=
  let w := btCalc clkHz defaultBitrate defaultRjw
  if w = 0#32 then [] else setBitratePlan w true

/-- init(rx_pin, tx_pin) (R233). -/
def initPlan (p : Params) (rxPin txPin : Nat) : List Micro :=
  [.envClock true, .envReset false, .wr .cntl 0x0001#16, .route rxPin txPin] ++
  defaultBitratePlan p.clkHz ++
  [.wr .cntl 0x0000#16, .spinInit 0 false] ++
  templatesPlan p.templateValid ++
  [.ret .ok]

/-- The staging writes and the transfer of install_filter for a chosen slot (R193 steps 2 to 5). -/
def filterWritePlan (id mask : Nat) (fmt : Fmt) (slot : Nat) : List Micro :=
  [.wr (.iface .if1 .msk1) (filterMsk1 mask fmt),
   .wr (.iface .if1 .msk2) (filterMsk2 mask fmt),
   .wr (.iface .if1 .arb1) (packArb1 id fmt),
   .wr (.iface .if1 .arb2) (filterArb2 id fmt),
   .wr (.iface .if1 .mctrl) filterMctrl] ++
  transferPlan .if1 (slotWord slot) cmdFilterWr ++
  [.ret (.value slot)]

/-- install_filter (R193): slot 0 asks for the scan. -/
def installFilterPlan (id mask : Nat) (fmt : Fmt) (slot : Nat) : List Micro :=
  if slot = 0 then [.rd (.msgv .lo) (.filterLo id mask fmt)] else filterWritePlan id mask fmt slot

/-- The staging writes and the transfer of send (R204 steps 3 to 6). -/
def sendWritePlan (f : Frame) : List Micro :=
  let w := packTx f
  [.wr (.iface .if1 .msk1) w.msk1,
   .wr (.iface .if1 .msk2) w.msk2,
   .wr (.iface .if1 .arb1) w.arb1,
   .wr (.iface .if1 .arb2) w.arb2,
   .wr (.iface .if1 .mctrl) w.mctrl,
   .wr (.iface .if1 .da1) w.da1,
   .wr (.iface .if1 .da2) w.da2,
   .wr (.iface .if1 .db1) w.db1,
   .wr (.iface .if1 .db2) w.db2] ++
  transferPlan .if1 (slotWord 32) cmdTxWr ++
  clrTxokPlan ++
  [.ret (.value 1)]

/-- send (R204). -/
def sendPlan (f : Frame) : List Micro := enablePlan ++ [.rd (.txreq .hi) (.sendPending f)]

/-- The transfer and the staging reads of receive for a chosen slot (R219 steps 3 and 4). -/
def receiveReadPlan (slot : Nat) : List Micro :=
  transferPlan .if2 (slotWord slot) cmdRxRd ++ [.rd (.iface .if2 .arb1) (.receiveWords [])]

/-- receive (R219): slot 0 asks for the scan. -/
def receivePlan (slot : Nat) : List Micro :=
  enablePlan ++ (if slot = 0 then [.rd (.nd .lo) .receiveLo] else receiveReadPlan slot)

/-- The TEST writes and the end of set_mode for a test mode with these TEST bits (R237). -/
def testModePlan (bits : Word) : List Micro :=
  setCntlPlan 0x0080#16 ++ [.wr .test 0x0000#16, .wr .test bits] ++ enablePlan ++ [.ret (.value 1)]

/-- set_mode (R237). -/
def setModePlan : ReqMode → List Micro
  | .disabled => setCntlPlan 0x0001#16 ++ [.ret (.value 1)]
  | .normal =>
    setCntlPlan 0x0080#16 ++ [.wr .test 0x0000#16] ++ clrCntlPlan 0x0080#16 ++ enablePlan ++ [.ret (.value 1)]
  | .silent => testModePlan 0x0008#16
  | .loopback => testModePlan 0x0010#16
  | .silentLoopback => testModePlan 0x0018#16
  | .globalTest => [.ret (.fail .modeUnsupported)]

/-- monitor (R239). -/
def monitorPlan (on : Bool) : List Micro :=
  if on then setCntlPlan 0x0080#16 ++ [.rd .test .monitorOn, .ret .ok]
  else [.rd .cntl .monitorOff, .ret .ok]

/-- reset() (R241). -/
def resetPlan (p : Params) : List Micro :=
  [.envReset true, .envReset false] ++ templatesPlan p.templateValid ++ [.ret .ok]

/-- irq_unregister() without its return (R277). -/
def unregisterPlan : List Micro :=
  [.hostIe false, .setReg Registration.empty] ++ clrCntlPlan 0x000E#16

/-- teardown() (R242). -/
def teardownPlan : List Micro := unregisterPlan ++ [.envClock false, .envReset true, .ret .ok]

/-- irq_register(cb, token) (R276). -/
def registerPlan (cb token : Nat) : List Micro :=
  [.setReg { cb := some cb, token := some token, rxEn := false, txEn := false }, .hostIe true] ++
  setCntlPlan 0x000E#16 ++ [.ret .ok]

/-- dispatch() (R280). -/
def dispatchPlan : List Micro := [.rd .int .dispatch]

/-- The least bit in n, ..., n + fuel - 1 of a map that has the value v. -/
def leastBit (map : BitVec 32) (v : Bool) : Nat → Nat → Option Nat
  | _, 0 => none
  | n, fuel + 1 => if map.getLsbD n = v then some n else leastBit map v (n + 1) fuel

/-- The 32-bit map of a bitmap pair, the first register in the low half (R74). -/
def pairMap (hi lo : Word) : BitVec 32 := hi ++ lo

/-- popcount of the transmit slots' bits of TXREQ2, from bit 15 down (R206). -/
def txPendingCount (t : Word) : Nat → Nat
  | 0 => 0
  | n + 1 => (if t.getLsbD (15 - n) then 1 else 0) + txPendingCount t n

/-- tx_status from TXREQ2 and the number of transmit slots (R206). -/
def txStateOf (t : Word) (count : Nat) : TxState :=
  let n := txPendingCount t count
  if n = 0 then .idle else if n = count then .busy else .available

/-- The status notifications of a dispatch, from the STAT value read (R280): the tests use the defined bits, arg is the value read. -/
def notifyPlan (used full : Word) : List Micro :=
  (if used.getLsbD 7 then [.callback .busOff full none] else []) ++
  (if used.getLsbD 6 then [.callback .errorWarning full none] else []) ++
  (if used.getLsbD 5 then [.callback .errorPassive full none] else []) ++
  (if used.getLsbD 4 then clrRxokPlan ++ [.callback .rxOk full none] else []) ++
  (if used.getLsbD 3 then clrTxokPlan ++ [.callback .txOk full none] else []) ++
  [.ret .ok]

/-- What a dispatch does for an interrupt identifier (R280). -/
def identifierPlan (id : Word) : List Micro :=
  if 1 ≤ id.toNat ∧ id.toNat ≤ 31 then
    transferPlan .if2 id cmdIntclrRd ++ [.callback .rx id (some .rx), .ret .ok]
  else if id.toNat = 32 then
    transferPlan .if2 id cmdIntclrRd ++ [.callback .tx id (some .tx), .ret .ok]
  else if id = 0x8000#16 then [.rd .stat .notify]
  else [.ret .ok]

/-- receive's staging reads, in order, and the frame they give (R219 steps 4 to 7): ws are the words read before this one. -/
def receiveWordsPlan (ws : List Word) (v : Word) : List Micro :=
  match ws with
  | [] => [.rd (.iface .if2 .arb2) (.receiveWords [v])]
  | [a1] => [.rd (.iface .if2 .mctrl) (.receiveWords [a1, v])]
  | [a1, a2] => [.rd (.iface .if2 .da1) (.receiveWords [a1, a2, v])]
  | [a1, a2, c] => [.rd (.iface .if2 .da2) (.receiveWords [a1, a2, c, v])]
  | [a1, a2, c, d1] => [.rd (.iface .if2 .db1) (.receiveWords [a1, a2, c, d1, v])]
  | [a1, a2, c, d1, d2] => [.rd (.iface .if2 .db2) (.receiveWords [a1, a2, c, d1, d2, v])]
  | a1 :: a2 :: c :: d1 :: d2 :: d3 :: _ => clrRxokPlan ++ [.ret (.frame (unpackRx a1 a2 c d1 d2 d3 v))]

/-- The actions that follow a read: used is the value with its reserved bits masked off (R38), full the value read. The last write of
monitor(off) is R239's function of the CNTL value read before, so it clears an INIT that the engine has set in between, as R313 says and
I25 of 93_implementation_defined.md (no atomic update) has it; that this sets aside the words of R240 item 3 is DEDUCED (log entry 28). -/
def Cont.next (k : Cont) (used full : Word) : List Micro :=
  match k with
  | .done => []
  | .setCntl m => [.wr .cntl ((used &&& 0x00EF#16) ||| m)]
  | .clrCntl m => [.wr .cntl ((used &&& 0x00EF#16) &&& ~~~ m)]
  | .enable => if used.getLsbD 0 then [.wr .cntl (used &&& 0x00EE#16), .spinInit 0 false] else []
  | .clrStat keep => [.wr .stat (used &&& keep)]
  | .setBitrate w inInit =>
    let v := used &&& 0x00EF#16
    [.wr .cntl (v ||| 0x0041#16), .wr .bt (timingBt w), .wr .clkdiv (timingClkdiv w), .wr .cntl (v &&& ~~~ 0x0040#16)] ++
    (if v.getLsbD 0 then [] else [.spinInit 0 inInit])
  | .filterLo id mask fmt => [.rd (.msgv .hi) (.filterHi used id mask fmt)]
  | .filterHi v1 id mask fmt =>
    match leastBit (pairMap used v1) false 0 31 with
    | some i => filterWritePlan id mask fmt (i + 1)
    | none => [.ret (.fail .noFreeFilterSlot)]
  | .sendPending f => if used.getLsbD 15 then [.ret (.fail .txSlotBusy)] else sendWritePlan f
  | .txStatus => [.ret (.tx (txStateOf used txMsgObjCount))]
  | .receiveLo => [.rd (.nd .hi) (.receiveHi used)]
  | .receiveHi v1 =>
    match leastBit (pairMap used v1) true 0 31 with
    | some i => receiveReadPlan (i + 1)
    | none => [.ret (.fail .noNewData)]
  | .receiveWords ws => receiveWordsPlan ws used
  | .rxErr => [.ret (.byte (field 0 (used.extractLsb' 8 7)))]
  | .txErr => [.ret (.byte (used.extractLsb' 0 8))]
  | .monitorOn => [.wr .test ((used &&& 0x0010#16) ||| 0x0008#16)]
  | .monitorOff => if used.getLsbD 7 then [.rd .test (.monitorOffTest used)] else []
  | .monitorOffTest v => [.wr .test (used &&& 0x0010#16), .wr .cntl ((v &&& 0x00EF#16) &&& ~~~ 0x0080#16)]
  | .dispatch => identifierPlan used
  | .notify => notifyPlan used full

end Sys2Proof.Machine
end

