-- ==== Sys2Proof/Machine/Calls.lean ====
section
/-! DEFINITION. Calls (R15): how each host procedure begins in the running context, the one atomic action a context takes at a time,
the agents' steps (R9), and the run of a call over the schedule until it returns. -/

namespace Sys2Proof.Machine

/-! ### The beginning of each call: the domain check comes before the first transaction (R265) -/

/-- The first operand out of domain of a filter call: identifier, then mask (R192; DESIGN CHOICE, log entry 14). -/
def badFilterOperand (id mask : Nat) (fmt : Fmt) : Option BadOperand :=
  if id > fmt.maxId then some (.ident id) else if mask > fmt.maxId then some (.mask mask) else none

/-- The first operand out of domain of a frame to be sent (R202). -/
def badFrameOperand (f : Frame) : Option BadOperand :=
  if f.id > f.fmt.maxId then some (.ident f.id) else if f.len > 8 then some (.len f.len) else none

/-- A call of the running context begins with these actions. -/
def State.startPlan (s : State) (todo : List Micro) : State := s.beginCall s.running todo

/-- BTCALC (R120, R128). -/
def startBtcalc (clk rate rjw : Nat) (s : State) : State :=
  if rjw > 3 then s.refuse (.argDomain .btcalc (.rjw rjw)) else s.returnCall (.timing (btCalc clk rate rjw))

/-- PACK_FILTER (R190, R192). -/
def startPackFilter (id mask : Nat) (fmt : Fmt) (s : State) : State :=
  match badFilterOperand id mask fmt with
  | some o => s.refuse (.argDomain .packFilter o)
  | none => s.returnCall (.filterWords (filterMsk1 mask fmt) (filterMsk2 mask fmt) (packArb1 id fmt) (filterArb2 id fmt))

/-- PACK_TX (R200, R201; its domain that of R202: DEDUCED, log entry 15). -/
def startPackTx (f : Frame) (s : State) : State :=
  match badFrameOperand f with
  | some o => s.refuse (.argDomain .packTx o)
  | none =>
    let w := packTx f
    s.returnCall (.txWords w.msk1 w.msk2 w.arb1 w.arb2 w.mctrl w.da1 w.da2 w.db1 w.db2)

/-- UNPACK_RX (R215, R216). -/
def startUnpackRx (arb1 arb2 mctrl da1 da2 db1 db2 : Word) (s : State) : State :=
  s.returnCall (.frame (unpackRx arb1 arb2 mctrl da1 da2 db1 db2))

/-- SPIN k (R170). -/
def startSpin (k : IfId) (s : State) : State := s.startPlan [.spinBusy k 0, .ret .ok]

/-- TRANSFER (R171). -/
def startTransfer (k : IfId) (n : Word) (c : Byte) (s : State) : State := s.startPlan (transferPlan k n c ++ [.ret .ok])

/-- CLR_TXOK (R203). -/
def startClrTxok (s : State) : State := s.startPlan (clrTxokPlan ++ [.ret .ok])

/-- CLR_RXOK (R218). -/
def startClrRxok (s : State) : State := s.startPlan (clrRxokPlan ++ [.ret .ok])

/-- SET_CNTL m (R230). -/
def startSetCntl (m : Word) (s : State) : State := s.startPlan (setCntlPlan m ++ [.ret .ok])

/-- CLR_CNTL m (R230). -/
def startClrCntl (m : Word) (s : State) : State := s.startPlan (clrCntlPlan m ++ [.ret .ok])

/-- ENABLE (R231). -/
def startEnable (s : State) : State := s.startPlan (enablePlan ++ [.ret .ok])

/-- INSTALL_TEMPLATES (R232). -/
def startInstallTemplates (s : State) : State := s.startPlan (templatesPlan s.params.templateValid ++ [.ret .ok])

/-- SET_BITRATE (R130): an unsatisfiable rate returns 0 and writes nothing. -/
def startSetBitrate (rate : Nat) (s : State) : State :=
  let w := btCalc s.params.clkHz rate defaultRjw
  if w = 0#32 then s.returnCall (.fail .btUnsatisfiable)
  else s.startPlan (setBitratePlan w false ++ [.ret (.value 1)])

/-- INSTALL_FILTER (R192, R193). -/
def startInstallFilter (id mask : Nat) (fmt : Fmt) (slot : Nat) (s : State) : State :=
  match badFilterOperand id mask fmt with
  | some o => s.refuse (.argDomain .installFilter o)
  | none =>
    if slot > 32 then s.refuse (.argDomain .installFilter (.slot slot))
    else s.startPlan (installFilterPlan id mask fmt slot)

/-- SEND (R202, R204): the flags argument is ignored. -/
def startSend (f : Frame) (_flags : Nat) (s : State) : State :=
  match badFrameOperand f with
  | some o => s.refuse (.argDomain .send o)
  | none => s.startPlan (sendPlan f)

/-- TX_STATUS (R206). -/
def startTxStatus (s : State) : State := s.startPlan [.rd (.txreq .hi) .txStatus]

/-- RECEIVE (R219). -/
def startReceive (slot : Nat) (s : State) : State :=
  if slot > 32 then s.refuse (.argDomain .receive (.slot slot)) else s.startPlan (receivePlan slot)

/-- RX_ERR_COUNT (R222). -/
def startRxErrCount (s : State) : State := s.startPlan [.rd .ec .rxErr]

/-- TX_ERR_COUNT (R222). -/
def startTxErrCount (s : State) : State := s.startPlan [.rd .ec .txErr]

/-- INIT (R233). -/
def startInit (rxPin txPin : Nat) (s : State) : State := s.startPlan (initPlan s.params rxPin txPin)

/-- SET_MODE (R237). -/
def startSetMode (m : ReqMode) (s : State) : State := s.startPlan (setModePlan m)

/-- MONITOR (R239). -/
def startMonitor (on : Bool) (s : State) : State := s.startPlan (monitorPlan on)

/-- RESET (R241). -/
def startReset (s : State) : State := s.startPlan (resetPlan s.params)

/-- TEARDOWN (R242; that it returns OK: DEDUCED, log entry 17). -/
def startTeardown (s : State) : State := s.startPlan teardownPlan

/-- IRQ_REGISTER (R276). -/
def startIrqRegister (cb token : Nat) (s : State) : State := s.startPlan (registerPlan cb token)

/-- IRQ_UNREGISTER (R277). -/
def startIrqUnregister (s : State) : State := s.startPlan (unregisterPlan ++ [.ret .ok])

/-- The registration with a class flag changed (R278). -/
def Registration.setClass (r : Registration) (cls : IrqClass) (on : Bool) : Registration :=
  match cls with
  | .rx => { r with rxEn := on }
  | .tx => { r with txEn := on }

/-- IRQ_ENABLE_CLASS (R278): no bus transaction; it returns OK (DEDUCED, log entry 17). -/
def startIrqEnableClass (cls : IrqClass) (on : Bool) (s : State) : State :=
  ({ s with reg := s.reg.setClass cls on } : State).returnCall .ok

/-- A bus operation as a call of one action, for a callback that issues it. -/
def startBusOp (op : BusOp) (s : State) : State :=
  match op with
  | .rd r => s.startPlan [.rd r .done, .ret .ok]
  | .wr r v => s.startPlan [.wr r v, .ret .ok]

/-- The beginning of what a callback issues (R279): a bus operation, or a call. A transfer's completion and a dispatch are no
operations of a host context and begin nothing (State.resolve passes them over; DESIGN CHOICE, log entry 18). -/
def startInstr (i : Instr) (s : State) : State :=
  match busOp i with
  | some op => startBusOp op s
  | none =>
    match i with
    | .btcalc clk rate rjw => startBtcalc clk rate rjw s
    | .packFilter id mask fmt => startPackFilter id mask fmt s
    | .packTx f => startPackTx f s
    | .unpackRx a1 a2 c d1 d2 d3 d4 => startUnpackRx a1 a2 c d1 d2 d3 d4 s
    | .spin k => startSpin k s
    | .transfer k n c => startTransfer k n c s
    | .clrTxok => startClrTxok s
    | .clrRxok => startClrRxok s
    | .setCntl m => startSetCntl m s
    | .clrCntl m => startClrCntl m s
    | .enable => startEnable s
    | .installTemplates => startInstallTemplates s
    | .setBitrate rate => startSetBitrate rate s
    | .installFilter id mask fmt slot => startInstallFilter id mask fmt slot s
    | .send f flags => startSend f flags s
    | .txStatus => startTxStatus s
    | .receive slot => startReceive slot s
    | .rxErrCount => startRxErrCount s
    | .txErrCount => startTxErrCount s
    | .init rx tx => startInit rx tx s
    | .setMode m => startSetMode m s
    | .monitor on => startMonitor on s
    | .reset => startReset s
    | .teardown => startTeardown s
    | .irqRegister cb token => startIrqRegister cb token s
    | .irqUnregister => startIrqUnregister s
    | .irqEnableClass cls on => startIrqEnableClass cls on s
    | _ => s

/-! ### Resolving what a context issues -/

/-- What an operation issued by a host context is, after the clock and reset check and decoding, in R265's order. -/
inductive Resolved where
  /-- The transaction is not admitted (R305). -/
  | waits
  /-- It spells no operation (R93, R261). -/
  | refused (m : RefusalMark)
  /-- A 32-bit read (R73). -/
  | wideRead (r : Reg)
  /-- An operation. -/
  | instr (i : Instr)
  /-- An environment action on the clock (R14). -/
  | clock (b : Bool)
  /-- An environment action on the reset input (R14). -/
  | reset (b : Bool)
  /-- No operation of a host context: it has no effect (DESIGN CHOICE, log entry 18). -/
  | passes
  deriving DecidableEq, Repr

/-- Whether an instruction is a step of a host context's own program: the completion of a transfer is a step of XFER_k for the command
its interface holds, and a dispatch one of HOST_IRQ (R9, R160, R280). -/
def isHostInstr : Instr → Bool
  | .xferWr _ _ | .xferRd _ _ | .dispatch => false
  | _ => true

/-- The refusal mark of a decoding error (R261). -/
def refusalOf : DecodeError → RefusalMark
  | .badOffset info => .badOffset info
  | .badWidth off => .badWidth off
  | .roWrite r => .roWrite r

/-- A decoder's answer, read as what a context issues. -/
def resolveDecoded : Decoded → Resolved
  | .instr i => .instr i
  | .rejected e => .refused (refusalOf e)

/-- An access at a bus address (R71, R73, R75): offsets are relative to BASE; a 32-bit read returns 32 bits. Below BASE
it is a bad offset (DEDUCED, log entry 20). -/
def resolveAccess (base : Nat) (width : AccessWidth) (write : Bool) (addr : Nat) (data : BitVec 32) : Resolved :=
  if addr < base then .refused (.badOffset addr)
  else
    match width, write, regAtOffset (addr - base) with
    | .w32, false, some r => .wideRead r
    | _, _, _ => resolveDecoded (decodeAccess width write (addr - base) data)

/-- Whether a call is a bus transaction, so that it needs admission. -/
def isBusCall (i : Instr) : Bool := (busOp i).isSome

/-- What an issued operation is (R140, R141, R265). An environment action is admitted at any time (R305). -/
def State.resolve (s : State) : HostOp → Resolved
  | .word t => if s.admitted then resolveDecoded (decodeBus t) else .waits
  | .access width write addr data => if s.admitted then resolveAccess s.params.base width write addr data else .waits
  | .call i => if !isHostInstr i then .passes else if isBusCall i && !s.admitted then .waits else .instr i
  | .envClock b => .clock b
  | .envReset b => .reset b

/-! ### One action of a host context -/

/-- A spin's next actions after a poll (R170): the condition holds, or one more failing poll, or the bound is reached. -/
def spinNext (maxSpin : Option Nat) (done : Bool) (again : Micro) (failed : Nat) (stalled todo : List Micro) : List Micro :=
  if done then todo
  else
    match maxSpin with
    | none => again :: todo
    | some m => if failed ≥ m then stalled else again :: todo

/-- A class flag of the registration; no class is always on (R280). -/
def Registration.enabled (r : Registration) : Option IrqClass → Bool
  | none => true
  | some .rx => r.rxEn
  | some .tx => r.txEn

/-- callback(e, arg) (R279, R280): recorded and, with the next callback program, begun, if a callback is registered and the class is
enabled; else the procedure goes on (what a callback does: DESIGN CHOICE, log entry 8). -/
def State.callBack (s : State) (c : CtxId) (e : Event) (arg : Word) (cls : Option IrqClass) (todo : List Micro)
    (rest : List Activation) : State :=
  match s.reg.cb with
  | none => s.continueCall c todo rest
  | some f =>
    if s.reg.enabled cls then
      ({ s with
          delivered := s.delivered ++ [{ cb := f, token := s.reg.token, event := e, arg := arg }]
          callbackPrograms := s.callbackPrograms.tail } : State).setCtx c
        { s.ctx c with calls := .callback (s.callbackPrograms.headD []) :: .proc todo :: rest }
    else s.continueCall c todo rest

/-- One action of a procedure. A bus transaction that is not admitted has no step: the context stays where it is (R140, R305). -/
def State.micro (s : State) (c : CtxId) (m : Micro) (todo : List Micro) (rest : List Activation) : State :=
  match m with
  | .rd r k =>
    if s.admitted then (s.hostRead r).continueCall c (k.next (s.usedWord r) (s.readWord r) ++ todo) rest else s
  | .rdWide r => if s.admitted then (s.hostReadWide r).continueCall c todo rest else s
  | .wr r v => if s.admitted then (s.hostWrite r v).continueCall c todo rest else s
  | .spinBusy k i =>
    if s.admitted then
      (s.hostRead (.iface k .cmdreq)).continueCall c
        (spinNext s.params.maxSpin (!(s.usedWord (.iface k .cmdreq)).getLsbD 15) (.spinBusy k (i + 1)) (i + 1)
          [.ret .stall] todo) rest
    else s
  | .spinInit i inInit =>
    if s.admitted then
      (s.hostRead .cntl).continueCall c
        (spinNext s.params.maxSpin (!(s.usedWord .cntl).getLsbD 0) (.spinInit (i + 1) inInit) (i + 1)
          (if inInit then todo else [.ret .stall]) todo) rest
    else s
  | .envClock b => (s.envClock b).continueCall c todo rest
  | .envReset b => (s.envReset b).continueCall c todo rest
  | .route _ _ => s.continueCall c todo rest
  | .setReg r => ({ s with reg := r } : State).continueCall c todo rest
  | .hostIe b => ({ s with hostIe := b } : State).continueCall c todo rest
  | .callback e arg cls => s.callBack c e arg cls todo rest
  | .ret r => s.continueCall c (.ret r :: todo) rest

/-- What a callback issues next (R279). -/
def State.callbackStep (s : State) (c : CtxId) (ops : List HostOp) (rest : List Activation) : State :=
  match ops with
  | [] => s.endCallback c rest
  | op :: ops =>
    match s.resolve op with
    | .waits => s
    | .refused m => s.refuse m
    | .wideRead r => (s.callbackLeft c ops rest).beginCall c [.rdWide r, .ret .ok]
    | .instr i => startInstr i (s.callbackLeft c ops rest)
    | .clock b => (s.callbackLeft c ops rest).envClock b
    | .reset b => (s.callbackLeft c ops rest).envReset b
    | .passes => s.callbackLeft c ops rest

/-- One action of the running context's innermost call; a context without a call has none. -/
def State.hostStep (s : State) : State :=
  let c := s.running
  match (s.ctx c).calls with
  | [] => s
  | .callback ops :: rest => s.callbackStep c ops rest
  | .proc [] :: rest => s.endCallback c rest
  | .proc (m :: todo) :: rest => s.micro c m todo rest

/-- One agent's step (R9), if it is enabled; a refused machine takes none (R11). -/
def State.agentStep (s : State) (t : Turn) : State :=
  if s.refused.isSome then s
  else
    match t with
    | .host => s.hostStep
    | .irq => s.takeInterrupt dispatchPlan
    | .xfer k => s.xferStep k
    | .pe e => s.peStep e

/-! ### A call's run over the schedule -/

/-- The call that context c began at depth d has returned, or the machine is refused. -/
def State.returned (s : State) (c : CtxId) (d : Nat) : Bool := decide ((s.ctx c).calls.length ≤ d) || s.refused.isSome

/-- The turns of the schedule, taken one agent step each, until the call returns or the schedule ends. -/
def runTurns (c : CtxId) (d : Nat) : List Turn → State → State
  | [], s => s.withTurns []
  | t :: ts, s => if s.returned c d then s.withTurns (t :: ts) else runTurns c d ts (s.agentStep t)

/-- A host call: it begins in the running context and runs by the schedule until it returns. If the schedule ends first, the call is
still in progress and later steps go on with it (DESIGN CHOICE, log entry 7). -/
def runCall (start : State → State) (s : State) : State :=
  runTurns s.running (s.ctx s.running).calls.length s.turns (start s)

end Sys2Proof.Machine
end

