-- ==== Sys2Proof/Machine/Filter.lean ====
section
/-! DEFINITION. The meanings of the filter rows (42_filter.md). A FUNC row gives its result at once. A PROC row is a call that runs by the
schedule until it returns (Calls.lean, runCall). -/

namespace Sys2Proof.Machine

/-- PACK_FILTER (R190). -/
def execPackFilter (id mask : Nat) (fmt : Fmt) (s : State) : Host.Outcome State Fault Refusal := .next (startPackFilter id mask fmt s)

/-- INSTALL_FILTER (R193). -/
def execInstallFilter (id mask : Nat) (fmt : Fmt) (slot : Nat) (s : State) : Host.Outcome State Fault Refusal := .next (runCall (startInstallFilter id mask fmt slot) s)

end Sys2Proof.Machine
end

