-- ==== Sys2Proof/Machine/Handshake.lean ====
section
/-! DEFINITION. The meanings of the handshake rows (R170, R171). A FUNC row gives its result at once. A PROC row is a call that runs by the
schedule until it returns (Calls.lean, runCall). -/

namespace Sys2Proof.Machine

/-- SPIN (R170). -/
def execSpin (k : IfId) (s : State) : Host.Outcome State Fault Refusal := .next (runCall (startSpin k) s)

/-- TRANSFER (R171). -/
def execTransfer (k : IfId) (n : Word) (c : Byte) (s : State) : Host.Outcome State Fault Refusal := .next (runCall (startTransfer k n c) s)

end Sys2Proof.Machine
end

