-- ==== Sys2Proof/Machine/Interrupts.lean ====
section
/-! DEFINITION. The meanings of the interrupt rows (60_exceptions.md). A FUNC row gives its result at once. A PROC row is a call that runs by the
schedule until it returns (Calls.lean, runCall). -/

namespace Sys2Proof.Machine

/-- IRQ_REGISTER (R276). -/
def execIrqRegister (cb token : Nat) (s : State) : Host.Outcome State Fault Refusal := .next (runCall (startIrqRegister cb token) s)

/-- IRQ_UNREGISTER (R277). -/
def execIrqUnregister (s : State) : Host.Outcome State Fault Refusal := .next (runCall startIrqUnregister s)

/-- IRQ_ENABLE_CLASS (R278). -/
def execIrqEnableClass (cls : IrqClass) (on : Bool) (s : State) : Host.Outcome State Fault Refusal := .next (startIrqEnableClass cls on s)

/-- DISPATCH (R271, R280): HOST_IRQ takes the interrupt and runs the dispatch. -/
def execDispatch (s : State) : Host.Outcome State Fault Refusal :=
  if s.mayDispatch then .next (runTurns .irq 0 s.turns (s.takeInterrupt dispatchPlan)) else .fault .dispatchNotEnabled

end Sys2Proof.Machine
end

