-- ==== Sys2Proof/Machine/Lifecycle.lean ====
section
/-! DEFINITION. The meanings of the lifecycle rows (45_lifecycle.md). A FUNC row gives its result at once. A PROC row is a call that runs by the
schedule until it returns (Calls.lean, runCall). -/

namespace Sys2Proof.Machine

/-- SET_CNTL (R230). -/
def execSetCntl (m : Word) (s : State) : Host.Outcome State Fault Refusal := .next (runCall (startSetCntl m) s)

/-- CLR_CNTL (R230). -/
def execClrCntl (m : Word) (s : State) : Host.Outcome State Fault Refusal := .next (runCall (startClrCntl m) s)

/-- ENABLE (R231). -/
def execEnable (s : State) : Host.Outcome State Fault Refusal := .next (runCall startEnable s)

/-- INSTALL_TEMPLATES (R232). -/
def execInstallTemplates (s : State) : Host.Outcome State Fault Refusal := .next (runCall startInstallTemplates s)

/-- INIT (R233). -/
def execInit (rxPin txPin : Nat) (s : State) : Host.Outcome State Fault Refusal := .next (runCall (startInit rxPin txPin) s)

/-- SET_MODE (R237). -/
def execSetMode (m : ReqMode) (s : State) : Host.Outcome State Fault Refusal := .next (runCall (startSetMode m) s)

/-- MONITOR (R239). -/
def execMonitor (on : Bool) (s : State) : Host.Outcome State Fault Refusal := .next (runCall (startMonitor on) s)

/-- RESET (R241). -/
def execReset (s : State) : Host.Outcome State Fault Refusal := .next (runCall startReset s)

/-- TEARDOWN (R242). -/
def execTeardown (s : State) : Host.Outcome State Fault Refusal := .next (runCall startTeardown s)

end Sys2Proof.Machine
end

