-- ==== Sys2Proof/Machine/Receive.lean ====
section
/-! DEFINITION. The meanings of the receive rows (44_receive.md). A FUNC row gives its result at once. A PROC row is a call that runs by the
schedule until it returns (Calls.lean, runCall). -/

namespace Sys2Proof.Machine

/-- UNPACK_RX (R215, R216). -/
def execUnpackRx (arb1 arb2 mctrl da1 da2 db1 db2 : Word) (s : State) : Host.Outcome State Fault Refusal := .next (startUnpackRx arb1 arb2 mctrl da1 da2 db1 db2 s)

/-- CLR_RXOK (R218). -/
def execClrRxok (s : State) : Host.Outcome State Fault Refusal := .next (runCall startClrRxok s)

/-- RECEIVE (R219). -/
def execReceive (slot : Nat) (s : State) : Host.Outcome State Fault Refusal := .next (runCall (startReceive slot) s)

/-- RX_ERR_COUNT (R222). -/
def execRxErrCount (s : State) : Host.Outcome State Fault Refusal := .next (runCall startRxErrCount s)

/-- TX_ERR_COUNT (R222). -/
def execTxErrCount (s : State) : Host.Outcome State Fault Refusal := .next (runCall startTxErrCount s)

end Sys2Proof.Machine
end

