-- ==== Sys2Proof/Machine/Registers.lean ====
section
/-! DEFINITION. The meanings of the BUS rows (R140 to R154): a read or a write of one register by the running host context. -/

namespace Sys2Proof.Machine

/-- An admitted read of a register; one that is not admitted has no step (R140). -/
def busRead (r : Reg) (s : State) : Host.Outcome State Fault Refusal :=
  if s.admitted then .next (s.hostRead r) else .fault .notAdmitted

/-- An admitted write of a register; one that is not admitted has no step (R141). -/
def busWrite (r : Reg) (v : Word) (s : State) : Host.Outcome State Fault Refusal :=
  if s.admitted then .next (s.hostWrite r v) else .fault .notAdmitted

/-- RD.CNTL (R148). -/
def execRdCntl (s : State) : Host.Outcome State Fault Refusal := busRead .cntl s

/-- RD.STAT (R142). -/
def execRdStat (s : State) : Host.Outcome State Fault Refusal := busRead .stat s

/-- RD.EC (R149). -/
def execRdEc (s : State) : Host.Outcome State Fault Refusal := busRead .ec s

/-- RD.BT (R149). -/
def execRdBt (s : State) : Host.Outcome State Fault Refusal := busRead .bt s

/-- RD.INT (R149). -/
def execRdInt (s : State) : Host.Outcome State Fault Refusal := busRead .int s

/-- RD.TEST (R149). -/
def execRdTest (s : State) : Host.Outcome State Fault Refusal := busRead .test s

/-- RD.IF1_CMDREQ (R151). -/
def execRdIf1Cmdreq (s : State) : Host.Outcome State Fault Refusal := busRead (.iface .if1 .cmdreq) s

/-- RD.IF1_CMDMSK (R154). -/
def execRdIf1Cmdmsk (s : State) : Host.Outcome State Fault Refusal := busRead (.iface .if1 .cmdmsk) s

/-- RD.IF1_MSK1 (R154). -/
def execRdIf1Msk1 (s : State) : Host.Outcome State Fault Refusal := busRead (.iface .if1 .msk1) s

/-- RD.IF1_MSK2 (R154). -/
def execRdIf1Msk2 (s : State) : Host.Outcome State Fault Refusal := busRead (.iface .if1 .msk2) s

/-- RD.IF1_ARB1 (R154). -/
def execRdIf1Arb1 (s : State) : Host.Outcome State Fault Refusal := busRead (.iface .if1 .arb1) s

/-- RD.IF1_ARB2 (R154). -/
def execRdIf1Arb2 (s : State) : Host.Outcome State Fault Refusal := busRead (.iface .if1 .arb2) s

/-- RD.IF1_MCTRL (R154). -/
def execRdIf1Mctrl (s : State) : Host.Outcome State Fault Refusal := busRead (.iface .if1 .mctrl) s

/-- RD.IF1_DA1 (R154). -/
def execRdIf1Da1 (s : State) : Host.Outcome State Fault Refusal := busRead (.iface .if1 .da1) s

/-- RD.IF1_DA2 (R154). -/
def execRdIf1Da2 (s : State) : Host.Outcome State Fault Refusal := busRead (.iface .if1 .da2) s

/-- RD.IF1_DB1 (R154). -/
def execRdIf1Db1 (s : State) : Host.Outcome State Fault Refusal := busRead (.iface .if1 .db1) s

/-- RD.IF1_DB2 (R154). -/
def execRdIf1Db2 (s : State) : Host.Outcome State Fault Refusal := busRead (.iface .if1 .db2) s

/-- RD.IF2_CMDREQ (R151). -/
def execRdIf2Cmdreq (s : State) : Host.Outcome State Fault Refusal := busRead (.iface .if2 .cmdreq) s

/-- RD.IF2_CMDMSK (R154). -/
def execRdIf2Cmdmsk (s : State) : Host.Outcome State Fault Refusal := busRead (.iface .if2 .cmdmsk) s

/-- RD.IF2_MSK1 (R154). -/
def execRdIf2Msk1 (s : State) : Host.Outcome State Fault Refusal := busRead (.iface .if2 .msk1) s

/-- RD.IF2_MSK2 (R154). -/
def execRdIf2Msk2 (s : State) : Host.Outcome State Fault Refusal := busRead (.iface .if2 .msk2) s

/-- RD.IF2_ARB1 (R154). -/
def execRdIf2Arb1 (s : State) : Host.Outcome State Fault Refusal := busRead (.iface .if2 .arb1) s

/-- RD.IF2_ARB2 (R154). -/
def execRdIf2Arb2 (s : State) : Host.Outcome State Fault Refusal := busRead (.iface .if2 .arb2) s

/-- RD.IF2_MCTRL (R154). -/
def execRdIf2Mctrl (s : State) : Host.Outcome State Fault Refusal := busRead (.iface .if2 .mctrl) s

/-- RD.IF2_DA1 (R154). -/
def execRdIf2Da1 (s : State) : Host.Outcome State Fault Refusal := busRead (.iface .if2 .da1) s

/-- RD.IF2_DA2 (R154). -/
def execRdIf2Da2 (s : State) : Host.Outcome State Fault Refusal := busRead (.iface .if2 .da2) s

/-- RD.IF2_DB1 (R154). -/
def execRdIf2Db1 (s : State) : Host.Outcome State Fault Refusal := busRead (.iface .if2 .db1) s

/-- RD.IF2_DB2 (R154). -/
def execRdIf2Db2 (s : State) : Host.Outcome State Fault Refusal := busRead (.iface .if2 .db2) s

/-- RD.TXREQ1 (R149). -/
def execRdTxreq1 (s : State) : Host.Outcome State Fault Refusal := busRead (.txreq .lo) s

/-- RD.TXREQ2 (R149). -/
def execRdTxreq2 (s : State) : Host.Outcome State Fault Refusal := busRead (.txreq .hi) s

/-- RD.ND1 (R149). -/
def execRdNd1 (s : State) : Host.Outcome State Fault Refusal := busRead (.nd .lo) s

/-- RD.ND2 (R149). -/
def execRdNd2 (s : State) : Host.Outcome State Fault Refusal := busRead (.nd .hi) s

/-- RD.IR1 (R149). -/
def execRdIr1 (s : State) : Host.Outcome State Fault Refusal := busRead (.ir .lo) s

/-- RD.IR2 (R149). -/
def execRdIr2 (s : State) : Host.Outcome State Fault Refusal := busRead (.ir .hi) s

/-- RD.MSGV1 (R149). -/
def execRdMsgv1 (s : State) : Host.Outcome State Fault Refusal := busRead (.msgv .lo) s

/-- RD.MSGV2 (R149). -/
def execRdMsgv2 (s : State) : Host.Outcome State Fault Refusal := busRead (.msgv .hi) s

/-- RD.CLKDIV (R149). -/
def execRdClkdiv (s : State) : Host.Outcome State Fault Refusal := busRead .clkdiv s

/-- WR.CNTL (R147). -/
def execWrCntl (v : Word) (s : State) : Host.Outcome State Fault Refusal := busWrite .cntl v s

/-- WR.STAT (R143). -/
def execWrStat (v : Word) (s : State) : Host.Outcome State Fault Refusal := busWrite .stat v s

/-- WR.BT (R144). -/
def execWrBt (v : Word) (s : State) : Host.Outcome State Fault Refusal := busWrite .bt v s

/-- WR.TEST (R146). -/
def execWrTest (v : Word) (s : State) : Host.Outcome State Fault Refusal := busWrite .test v s

/-- WR.IF1_CMDREQ (R150). -/
def execWrIf1Cmdreq (v : Word) (s : State) : Host.Outcome State Fault Refusal := busWrite (.iface .if1 .cmdreq) v s

/-- WR.IF1_CMDMSK (R152). -/
def execWrIf1Cmdmsk (v : Word) (s : State) : Host.Outcome State Fault Refusal := busWrite (.iface .if1 .cmdmsk) v s

/-- WR.IF1_MSK1 (R153). -/
def execWrIf1Msk1 (v : Word) (s : State) : Host.Outcome State Fault Refusal := busWrite (.iface .if1 .msk1) v s

/-- WR.IF1_MSK2 (R153). -/
def execWrIf1Msk2 (v : Word) (s : State) : Host.Outcome State Fault Refusal := busWrite (.iface .if1 .msk2) v s

/-- WR.IF1_ARB1 (R153). -/
def execWrIf1Arb1 (v : Word) (s : State) : Host.Outcome State Fault Refusal := busWrite (.iface .if1 .arb1) v s

/-- WR.IF1_ARB2 (R153). -/
def execWrIf1Arb2 (v : Word) (s : State) : Host.Outcome State Fault Refusal := busWrite (.iface .if1 .arb2) v s

/-- WR.IF1_MCTRL (R153). -/
def execWrIf1Mctrl (v : Word) (s : State) : Host.Outcome State Fault Refusal := busWrite (.iface .if1 .mctrl) v s

/-- WR.IF1_DA1 (R153). -/
def execWrIf1Da1 (v : Word) (s : State) : Host.Outcome State Fault Refusal := busWrite (.iface .if1 .da1) v s

/-- WR.IF1_DA2 (R153). -/
def execWrIf1Da2 (v : Word) (s : State) : Host.Outcome State Fault Refusal := busWrite (.iface .if1 .da2) v s

/-- WR.IF1_DB1 (R153). -/
def execWrIf1Db1 (v : Word) (s : State) : Host.Outcome State Fault Refusal := busWrite (.iface .if1 .db1) v s

/-- WR.IF1_DB2 (R153). -/
def execWrIf1Db2 (v : Word) (s : State) : Host.Outcome State Fault Refusal := busWrite (.iface .if1 .db2) v s

/-- WR.IF2_CMDREQ (R150). -/
def execWrIf2Cmdreq (v : Word) (s : State) : Host.Outcome State Fault Refusal := busWrite (.iface .if2 .cmdreq) v s

/-- WR.IF2_CMDMSK (R152). -/
def execWrIf2Cmdmsk (v : Word) (s : State) : Host.Outcome State Fault Refusal := busWrite (.iface .if2 .cmdmsk) v s

/-- WR.IF2_MSK1 (R153). -/
def execWrIf2Msk1 (v : Word) (s : State) : Host.Outcome State Fault Refusal := busWrite (.iface .if2 .msk1) v s

/-- WR.IF2_MSK2 (R153). -/
def execWrIf2Msk2 (v : Word) (s : State) : Host.Outcome State Fault Refusal := busWrite (.iface .if2 .msk2) v s

/-- WR.IF2_ARB1 (R153). -/
def execWrIf2Arb1 (v : Word) (s : State) : Host.Outcome State Fault Refusal := busWrite (.iface .if2 .arb1) v s

/-- WR.IF2_ARB2 (R153). -/
def execWrIf2Arb2 (v : Word) (s : State) : Host.Outcome State Fault Refusal := busWrite (.iface .if2 .arb2) v s

/-- WR.IF2_MCTRL (R153). -/
def execWrIf2Mctrl (v : Word) (s : State) : Host.Outcome State Fault Refusal := busWrite (.iface .if2 .mctrl) v s

/-- WR.IF2_DA1 (R153). -/
def execWrIf2Da1 (v : Word) (s : State) : Host.Outcome State Fault Refusal := busWrite (.iface .if2 .da1) v s

/-- WR.IF2_DA2 (R153). -/
def execWrIf2Da2 (v : Word) (s : State) : Host.Outcome State Fault Refusal := busWrite (.iface .if2 .da2) v s

/-- WR.IF2_DB1 (R153). -/
def execWrIf2Db1 (v : Word) (s : State) : Host.Outcome State Fault Refusal := busWrite (.iface .if2 .db1) v s

/-- WR.IF2_DB2 (R153). -/
def execWrIf2Db2 (v : Word) (s : State) : Host.Outcome State Fault Refusal := busWrite (.iface .if2 .db2) v s

/-- WR.CLKDIV (R145). -/
def execWrClkdiv (v : Word) (s : State) : Host.Outcome State Fault Refusal := busWrite .clkdiv v s

end Sys2Proof.Machine
end

