-- ==== Sys2Proof/Machine/Timing.lean ====
section
/-! DEFINITION. The meanings of the bit-timing rows (40_bit_timing.md). A FUNC row gives its result at once. A PROC row is a call that runs by the
schedule until it returns (Calls.lean, runCall). -/

namespace Sys2Proof.Machine

/-- BTCALC (R120). -/
def execBtcalc (clk rate rjw : Nat) (s : State) : Host.Outcome State Fault Refusal := .next (startBtcalc clk rate rjw s)

/-- SET_BITRATE (R130). -/
def execSetBitrate (rate : Nat) (s : State) : Host.Outcome State Fault Refusal := .next (runCall (startSetBitrate rate) s)

end Sys2Proof.Machine
end

