-- ==== Sys2Proof/Machine/Transfers.lean ====
section
/-! DEFINITION. The meanings of the CMD rows: the completion of the transfer in flight on an interface (R160 to R169), the step of
agent XFER_k for the command word's parts. -/

namespace Sys2Proof.Machine

/-- XFER_WR (R160 to R166). -/
def execXferWr (k : IfId) (p : Parts) (s : State) : Host.Outcome State Fault Refusal :=
  if s.xferEnabled k then .next (s.withBlock (s.block.writeTransfer k p)) else .fault (.xferNotEnabled k)

/-- XFER_RD (R160, R167, R168). -/
def execXferRd (k : IfId) (p : Parts) (s : State) : Host.Outcome State Fault Refusal :=
  if s.xferEnabled k then .next (s.withBlock (s.block.readTransfer k p)) else .fault (.xferNotEnabled k)

end Sys2Proof.Machine
end

