-- ==== Sys2Proof/Machine/Transmit.lean ====
section
/-! DEFINITION. The meanings of the transmit rows (43_transmit.md). A FUNC row gives its result at once. A PROC row is a call that runs by the
schedule until it returns (Calls.lean, runCall). -/

namespace Sys2Proof.Machine

/-- PACK_TX (R200, R201). -/
def execPackTx (frame : Frame) (s : State) : Host.Outcome State Fault Refusal := .next (startPackTx frame s)

/-- CLR_TXOK (R203). -/
def execClrTxok (s : State) : Host.Outcome State Fault Refusal := .next (runCall startClrTxok s)

/-- SEND (R204). -/
def execSend (frame : Frame) (flags : Nat) (s : State) : Host.Outcome State Fault Refusal := .next (runCall (startSend frame flags) s)

/-- TX_STATUS (R206). -/
def execTxStatus (s : State) : Host.Outcome State Fault Refusal := .next (runCall startTxStatus s)

end Sys2Proof.Machine
end

