-- ==== Sys2Proof/Machine/Dispatch.lean ====
section
/-! DEFINITION. One arm per instruction. -/

namespace Sys2Proof.Machine

def exec (i : Instr) (s : State) : Host.Outcome State Fault Refusal :=
  match i with
  | .rdCntl => Sys2Proof.Machine.execRdCntl s
  | .rdStat => Sys2Proof.Machine.execRdStat s
  | .rdEc => Sys2Proof.Machine.execRdEc s
  | .rdBt => Sys2Proof.Machine.execRdBt s
  | .rdInt => Sys2Proof.Machine.execRdInt s
  | .rdTest => Sys2Proof.Machine.execRdTest s
  | .rdIf1Cmdreq => Sys2Proof.Machine.execRdIf1Cmdreq s
  | .rdIf1Cmdmsk => Sys2Proof.Machine.execRdIf1Cmdmsk s
  | .rdIf1Msk1 => Sys2Proof.Machine.execRdIf1Msk1 s
  | .rdIf1Msk2 => Sys2Proof.Machine.execRdIf1Msk2 s
  | .rdIf1Arb1 => Sys2Proof.Machine.execRdIf1Arb1 s
  | .rdIf1Arb2 => Sys2Proof.Machine.execRdIf1Arb2 s
  | .rdIf1Mctrl => Sys2Proof.Machine.execRdIf1Mctrl s
  | .rdIf1Da1 => Sys2Proof.Machine.execRdIf1Da1 s
  | .rdIf1Da2 => Sys2Proof.Machine.execRdIf1Da2 s
  | .rdIf1Db1 => Sys2Proof.Machine.execRdIf1Db1 s
  | .rdIf1Db2 => Sys2Proof.Machine.execRdIf1Db2 s
  | .rdIf2Cmdreq => Sys2Proof.Machine.execRdIf2Cmdreq s
  | .rdIf2Cmdmsk => Sys2Proof.Machine.execRdIf2Cmdmsk s
  | .rdIf2Msk1 => Sys2Proof.Machine.execRdIf2Msk1 s
  | .rdIf2Msk2 => Sys2Proof.Machine.execRdIf2Msk2 s
  | .rdIf2Arb1 => Sys2Proof.Machine.execRdIf2Arb1 s
  | .rdIf2Arb2 => Sys2Proof.Machine.execRdIf2Arb2 s
  | .rdIf2Mctrl => Sys2Proof.Machine.execRdIf2Mctrl s
  | .rdIf2Da1 => Sys2Proof.Machine.execRdIf2Da1 s
  | .rdIf2Da2 => Sys2Proof.Machine.execRdIf2Da2 s
  | .rdIf2Db1 => Sys2Proof.Machine.execRdIf2Db1 s
  | .rdIf2Db2 => Sys2Proof.Machine.execRdIf2Db2 s
  | .rdTxreq1 => Sys2Proof.Machine.execRdTxreq1 s
  | .rdTxreq2 => Sys2Proof.Machine.execRdTxreq2 s
  | .rdNd1 => Sys2Proof.Machine.execRdNd1 s
  | .rdNd2 => Sys2Proof.Machine.execRdNd2 s
  | .rdIr1 => Sys2Proof.Machine.execRdIr1 s
  | .rdIr2 => Sys2Proof.Machine.execRdIr2 s
  | .rdMsgv1 => Sys2Proof.Machine.execRdMsgv1 s
  | .rdMsgv2 => Sys2Proof.Machine.execRdMsgv2 s
  | .rdClkdiv => Sys2Proof.Machine.execRdClkdiv s
  | .wrCntl v => Sys2Proof.Machine.execWrCntl v s
  | .wrStat v => Sys2Proof.Machine.execWrStat v s
  | .wrBt v => Sys2Proof.Machine.execWrBt v s
  | .wrTest v => Sys2Proof.Machine.execWrTest v s
  | .wrIf1Cmdreq v => Sys2Proof.Machine.execWrIf1Cmdreq v s
  | .wrIf1Cmdmsk v => Sys2Proof.Machine.execWrIf1Cmdmsk v s
  | .wrIf1Msk1 v => Sys2Proof.Machine.execWrIf1Msk1 v s
  | .wrIf1Msk2 v => Sys2Proof.Machine.execWrIf1Msk2 v s
  | .wrIf1Arb1 v => Sys2Proof.Machine.execWrIf1Arb1 v s
  | .wrIf1Arb2 v => Sys2Proof.Machine.execWrIf1Arb2 v s
  | .wrIf1Mctrl v => Sys2Proof.Machine.execWrIf1Mctrl v s
  | .wrIf1Da1 v => Sys2Proof.Machine.execWrIf1Da1 v s
  | .wrIf1Da2 v => Sys2Proof.Machine.execWrIf1Da2 v s
  | .wrIf1Db1 v => Sys2Proof.Machine.execWrIf1Db1 v s
  | .wrIf1Db2 v => Sys2Proof.Machine.execWrIf1Db2 v s
  | .wrIf2Cmdreq v => Sys2Proof.Machine.execWrIf2Cmdreq v s
  | .wrIf2Cmdmsk v => Sys2Proof.Machine.execWrIf2Cmdmsk v s
  | .wrIf2Msk1 v => Sys2Proof.Machine.execWrIf2Msk1 v s
  | .wrIf2Msk2 v => Sys2Proof.Machine.execWrIf2Msk2 v s
  | .wrIf2Arb1 v => Sys2Proof.Machine.execWrIf2Arb1 v s
  | .wrIf2Arb2 v => Sys2Proof.Machine.execWrIf2Arb2 v s
  | .wrIf2Mctrl v => Sys2Proof.Machine.execWrIf2Mctrl v s
  | .wrIf2Da1 v => Sys2Proof.Machine.execWrIf2Da1 v s
  | .wrIf2Da2 v => Sys2Proof.Machine.execWrIf2Da2 v s
  | .wrIf2Db1 v => Sys2Proof.Machine.execWrIf2Db1 v s
  | .wrIf2Db2 v => Sys2Proof.Machine.execWrIf2Db2 v s
  | .wrClkdiv v => Sys2Proof.Machine.execWrClkdiv v s
  | .xferWr k p => Sys2Proof.Machine.execXferWr k p s
  | .xferRd k p => Sys2Proof.Machine.execXferRd k p s
  | .btcalc clk rate rjw => Sys2Proof.Machine.execBtcalc clk rate rjw s
  | .packFilter id mask fmt => Sys2Proof.Machine.execPackFilter id mask fmt s
  | .packTx frame => Sys2Proof.Machine.execPackTx frame s
  | .unpackRx arb1 arb2 mctrl da1 da2 db1 db2 => Sys2Proof.Machine.execUnpackRx arb1 arb2 mctrl da1 da2 db1 db2 s
  | .spin k => Sys2Proof.Machine.execSpin k s
  | .transfer k n c => Sys2Proof.Machine.execTransfer k n c s
  | .clrTxok => Sys2Proof.Machine.execClrTxok s
  | .clrRxok => Sys2Proof.Machine.execClrRxok s
  | .setCntl m => Sys2Proof.Machine.execSetCntl m s
  | .clrCntl m => Sys2Proof.Machine.execClrCntl m s
  | .enable => Sys2Proof.Machine.execEnable s
  | .installTemplates => Sys2Proof.Machine.execInstallTemplates s
  | .setBitrate rate => Sys2Proof.Machine.execSetBitrate rate s
  | .installFilter id mask fmt slot => Sys2Proof.Machine.execInstallFilter id mask fmt slot s
  | .send frame flags => Sys2Proof.Machine.execSend frame flags s
  | .txStatus => Sys2Proof.Machine.execTxStatus s
  | .receive slot => Sys2Proof.Machine.execReceive slot s
  | .rxErrCount => Sys2Proof.Machine.execRxErrCount s
  | .txErrCount => Sys2Proof.Machine.execTxErrCount s
  | .init rxPin txPin => Sys2Proof.Machine.execInit rxPin txPin s
  | .setMode m => Sys2Proof.Machine.execSetMode m s
  | .monitor on => Sys2Proof.Machine.execMonitor on s
  | .reset => Sys2Proof.Machine.execReset s
  | .teardown => Sys2Proof.Machine.execTeardown s
  | .irqRegister cb token => Sys2Proof.Machine.execIrqRegister cb token s
  | .irqUnregister => Sys2Proof.Machine.execIrqUnregister s
  | .irqEnableClass cls on => Sys2Proof.Machine.execIrqEnableClass cls on s
  | .dispatch => Sys2Proof.Machine.execDispatch s

end Sys2Proof.Machine
end

