-- ==== Sys2Proof/Machine/Fetch.lean ====
section
/-! DEFINITION. What a turn does (R9, R10): the running host context goes on with its call or issues its next operation, HOST_IRQ starts
a dispatch, XFER_k completes its transfer, the protocol engine steps. A turn of an agent without an enabled step changes nothing. -/

namespace Sys2Proof.Machine

/-- Whether an action is a bus transaction. -/
def Micro.isBus : Micro → Bool
  | .rd _ _ | .rdWide _ | .wr _ _ | .spinBusy _ _ | .spinInit _ _ => true
  | .envClock _ | .envReset _ | .route _ _ | .setReg _ | .hostIe _ | .callback _ _ _ | .ret _ => false

/-- What the running host context does on its turn. -/
inductive HostMove where
  /-- A call in progress takes its next action. -/
  | goOn
  /-- Nothing is issued. -/
  | idle
  /-- Its next action is a transaction that is not admitted (R305). -/
  | stuck
  /-- It issues a spelling of no operation (R261). -/
  | refused (m : RefusalMark)
  /-- It issues a 32-bit read (R73). -/
  | wideRead (r : Reg)
  /-- It issues this instruction. -/
  | run (i : Instr)
  /-- It acts on the clock (R14, R293). -/
  | clock (b : Bool)
  /-- It acts on the reset input (R14, R293). -/
  | reset (b : Bool)
  /-- The entry is no operation of a host context: it is taken off and has no effect (DESIGN CHOICE, log entry 18). -/
  | pass
  deriving DecidableEq, Repr

/-- The next operation of HOST_MAIN's program, resolved (R92, R93, R265). -/
def State.fetch (s : State) : HostMove :=
  match s.program with
  | [] => .idle
  | op :: _ =>
    match s.resolve op with
    | .waits => .stuck
    | .refused m => .refused m
    | .wideRead r => .wideRead r
    | .instr i => .run i
    | .clock b => .clock b
    | .reset b => .reset b
    | .passes => .pass

/-- The running host context's move (R10: HOST_IRQ runs to completion before HOST_MAIN moves again). -/
def State.hostMove (s : State) : HostMove :=
  match (s.ctx s.running).calls with
  | [] => s.fetch
  | .callback (op :: _) :: _ => if s.resolve op = .waits then .stuck else .goOn
  | .proc (m :: _) :: _ => if m.isBus && !s.admitted then .stuck else .goOn
  | _ => .goOn

/-- The state with the issued operation taken off the program. -/
def State.issued (s : State) : State := { s with program := s.program.tail }

/-- The outcome of one turn. -/
def takeTurn (t : Turn) (s : State) : Host.Outcome State Fault Refusal :=
  match t with
  | .host =>
    match s.hostMove with
    | .goOn => .next s.hostStep
    | .idle => .next s
    | .stuck => .fault .notAdmitted
    | .refused m => .next (s.issued.refuse m)
    | .wideRead r => .next (s.issued.hostReadWide r)
    | .run i => exec i s.issued
    | .clock b => .next (s.issued.envClock b)
    | .reset b => .next (s.issued.envReset b)
    | .pass => .next s.issued
  | .irq => if s.mayDispatch then exec .dispatch s else .next s
  | .xfer k => if s.xferEnabled k then exec (decodeCmd k (s.block.iface k).cmd) s else .next s
  | .pe e => .next (s.peStep e)

/-- A schedule that has run out is drawn anew (R9: any enabled step of any agent may come next; DESIGN CHOICE, log entry 1). -/
def State.schedule (s : State) : State :=
  match s.turns with
  | [] => (s.withTurns (Config.freeTurns s.fresh)).spend 1
  | _ :: _ => s

/-- The state with the schedule's first turn taken off. -/
def State.turnTaken (s : State) : State := s.withTurns s.turns.tail

end Sys2Proof.Machine
end

