-- ==== Sys2Proof/Machine/Step.lean ====
section
/-! DEFINITION. One step of the machine, and how an instruction is placed where the next step fetches. -/

namespace Sys2Proof.Machine

/-- One step: a refused machine takes none (R11); else the next turn of the schedule is taken, and with an empty schedule nothing
moves. -/
def step (s : State) : Host.Outcome State Fault Refusal :=
  match s.refused with
  | some _ => .refused .afterRefusal
  | none =>
    match s.schedule.turns with
    | [] => .next s.schedule
    | t :: _ => takeTurn t s.schedule.turnTaken

/-- An interface with a transfer of this command word in flight, as a CMDREQ write leaves it (R150). -/
def inFlight (f : Iface) (c : Byte) : Iface :=
  { f with busy := true, cmd := c, cmdmsk := c, msgnum := BitVec.ofNat 6 (slotNumber f.slot) }

/-- The state in which the very next step runs this instruction (log entry 6): the clock on and reset released, no refusal; a 32-bit
word is HOST_MAIN's next operation, the contexts idle and the next turn the host's; an 8-bit command word is the one latched in IF1
with its transfer in flight, and the next turn XFER_1's. -/
def State.withFetchWord (s : State) (nbits w : Nat) : State :=
  match nbits with
  | 32 =>
    { s with
      program := .word (BitVec.ofNat 32 w) :: s.program
      turns := .host :: s.turns
      main := { s.main with calls := [] }
      irq := { s.irq with calls := [] }
      clkEn := true
      rst := false
      refused := none }
  | 8 =>
    { s with
      block := s.block.setIface .if1 (inFlight (s.block.iface .if1) (BitVec.ofNat 8 w))
      turns := .xfer .if1 :: s.turns
      clkEn := true
      rst := false
      refused := none }
  | _ => s

end Sys2Proof.Machine
end

