-- ==== Sys2Proof/Safety.lean ====
section
/-! DEFINITION. The terms claims use: a safe run, the invariant of the machine, what a read or a call leaves, and the schedules in which
the host procedures run without another agent's interference. -/

namespace Sys2Proof

open Sys2Proof.Machine

/-- No fault has been recorded and nothing was refused (R44, R261, R262). -/
def Safety.Clean (s : State) : Prop := s.faults = [] ∧ s.refused = none

/-- A run of the machine: each state's step answers the next. -/
def Safety.IsRun (σ : Nat → State) : Prop := ∀ n, step (σ n) = .next (σ (n + 1))

/-- CLOCK_OK over a run (R8, R160, R268): a transfer that stays in flight with the block clocked is eventually completed, and an
initialisation acknowledgment that stays pending is eventually given. It is a premise a claim may take; no definition assumes it
(DESIGN CHOICE, log entry 23). -/
def Safety.ClockOk (σ : Nat → State) : Prop :=
  (∀ k n, ¬ ∀ m, n ≤ m → (σ m).xferEnabled k = true) ∧
  (∀ n, ¬ ∀ m, n ≤ m → (σ m).block.initPending = true ∧ (σ m).admitted = true)

/-! ### The invariant -/

/-- What holds of an interface in every state a run reaches: the latched slot and command are the ones the registers show while a
transfer is in flight (R150, R152, R155), and reserved bits hold nothing (R38). -/
structure Safety.IfaceInv (f : Iface) : Prop where
  cmd : f.busy = true → f.cmd = f.cmdmsk
  slot : f.busy = true → f.msgnum.toNat = slotNumber f.slot
  msk2 : f.msk2 &&& 0x2000#16 = 0#16
  mctrl : f.mctrl &&& 0x0070#16 = 0#16

/-- The machine's invariant: both interfaces', an acknowledgment pends only after INIT was released (R42, R147), while reset is
asserted the fields R300 fixes have their values, and no fault is recorded twice (R44). -/
structure Safety.Inv (s : State) : Prop where
  iface : ∀ k, Safety.IfaceInv (s.block.iface k)
  pending : s.block.initPending = true → s.block.cntl.init = false
  reset : s.rst = true → s.block.cntl.init = true ∧ s.block.if1.busy = false ∧ s.block.if2.busy = false ∧
    s.block.statInt = false ∧ s.block.initPending = false
  faults : s.faults.Nodup

/-! ### What an operation leaves -/

/-- t is s after the running context read the word w and the block became b: the count of free values taken is left open, all else is
as in s. -/
def Safety.ReadGave (s : State) (b : Block) (w : Word) (t : State) : Prop :=
  ∃ n, t = ({ s with block := b, fresh := n } : State).setCtx s.running { s.ctx s.running with rdata := w.setWidth 32 }

/-- t is s with one fault recorded: the marks gain exactly f, all else is as in s (R262, R264). -/
def Safety.Records (s : State) (f : BusFault) (t : State) : Prop :=
  (∀ g, g ∈ t.faults ↔ g ∈ s.faults ∨ g = f) ∧ ({ t with faults := s.faults } : State) = s

/-- t is s after the running context's call returned r with the block b and the turns ts left: the last value read and the count of
free values taken are left open, all else is as in s. -/
def Safety.Returned (s : State) (b : Block) (ts : List Turn) (r : Ret) (t : State) : Prop :=
  ∃ n w, t = ({ s with block := b, fresh := n, turns := ts } : State).setCtx s.running
    { s.ctx s.running with rdata := w, ret := r }

/-- t is s after a dispatch that returned OK, with the block b, the turns ts left and these callback invocations made (R274): HOST_MAIN
is as it was. -/
def Safety.Dispatched (s : State) (b : Block) (ts : List Turn) (ds : List Delivery) (t : State) : Prop :=
  ∃ n w, t = ({ s with block := b, fresh := n, turns := ts, delivered := s.delivered ++ ds } : State).setCtx .irq
    { calls := [], rdata := w, ret := .ok }

/-- The host is about to issue the operation op on the next turn, no call being in progress, and ts are the turns after it. -/
def Safety.Issues (s : State) (op : HostOp) (ts : List Turn) : Prop :=
  s.refused = none ∧ s.turns = .host :: ts ∧ s.main.calls = [] ∧ s.irq.calls = [] ∧ s.program.head? = some op

/-- The state after that turn was taken and the operation taken off the program. -/
def Safety.issued (s : State) (ts : List Turn) : State := { s with turns := ts, program := s.program.tail }

/-- An operation that is no call of a procedure: a word, an access, an environment action, a bus transaction by name, or an entry that
is no operation of a host context (log entry 18). -/
def Safety.NoProcedure (op : HostOp) : Prop :=
  ∀ i, op = .call i → (busOp i).isSome = true ∨ i = .dispatch ∨ ∃ k p, i = .xferWr k p ∨ i = .xferRd k p

/-- A state in which calls can run: clocked, not in reset, not refused. -/
def Safety.Ready (s : State) : Prop := s.clkEn = true ∧ s.rst = false ∧ s.refused = none

/-- The read-only registers (R76). -/
def Safety.readOnly : Reg → Bool
  | .ec | .int | .txreq _ | .nd _ | .ir _ | .msgv _ => true
  | _ => false

/-! ### Schedules -/

/-- k turns of the host. -/
def Safety.hosts (k : Nat) : List Turn := List.replicate k .host

/-- The turns of transfer(k, ...) when XFER_k completes the transfer right after it starts (R171). -/
def Safety.transferTurns (k : IfId) : List Turn := [.host, .host, .host, .xfer k, .host]

/-- The turns of ENABLE when the acknowledgment comes right after INIT is released (R231). -/
def Safety.enableTurns (b : Block) : List Turn := if b.initReads then [.host, .host, .pe .initAck, .host] else [.host]

/-- The block after ENABLE (R231): INIT is 0 and acknowledged. -/
def Safety.enabled (b : Block) : Block := { b with cntl := { b.cntl with init := false }, initPending := false }

/-- The block while a release of INIT waits for its acknowledgment (R42, R231): INIT is 0 and reads 1. -/
def Safety.released (b : Block) : Block := { b with cntl := { b.cntl with init := false }, initPending := true }

/-- The turns in which a wait bounded by m polls fails (R170): at least one poll is made. -/
def Safety.stallTurns (m : Nat) : List Turn := Safety.hosts (max m 1)

/-- The turns of install_templates (R232). -/
def Safety.templateTurns : List Turn :=
  Safety.hosts 5 ++ (List.replicate 31 (Safety.transferTurns .if1)).flatten ++ Safety.hosts 1 ++ Safety.transferTurns .if1

/-- A message object after install_templates (R232): its data bytes are kept. -/
def Safety.template (valid : Bool) (n : Slot) (o : Obj) : Obj where
  msgval := valid
  xtd := false
  dir := false
  id := 0#29
  mxtd := false
  mdir := false
  msk := 0#29
  newdat := false
  msglst := false
  intpnd := false
  umask := true
  txie := false
  rxie := false
  rmten := false
  txrqst := false
  eob := true
  dlc := if n.val = 31 then 0#4 else 8#4
  data := o.data

/-- The turns a dispatch takes for the notifications of a status change, when each takes perCall turns: two for a callback that issues
nothing (the call and its end), one if no callback is registered (R280). -/
def Safety.noticeTurns (perCall : Nat) (st : Stat) : List Turn :=
  (if st.boff then Safety.hosts perCall else []) ++ (if st.ewarn then Safety.hosts perCall else []) ++
  (if st.epass then Safety.hosts perCall else []) ++ (if st.rxok then Safety.hosts (2 + perCall) else []) ++
  (if st.txok then Safety.hosts (2 + perCall) else [])

/-- The events of a status change, in their fixed order (R272, R280). -/
def Safety.notices (st : Stat) : List Event :=
  (if st.boff then [.busOff] else []) ++ (if st.ewarn then [.errorWarning] else []) ++
  (if st.epass then [.errorPassive] else []) ++ (if st.rxok then [.rxOk] else []) ++ (if st.txok then [.txOk] else [])

end Sys2Proof
end

