-- ==== Sys2Proof/Certificates/Slice0/Obligations.lean ====
section
/-! DEFINITION. The statements for the provers, each a proposition under Obligations. -/

open Sys2Proof Sys2Proof.Machine

/-! ### Encoding -/

/-- Words written out from the tables of R92, R94, R194, R205 and R220 decode to the operations they stand for, one or more for each
family that has words. -/
def Obligations.SampleWords : Prop :=
  decode (.bus 0x00000000#32) = .instr .rdCntl ∧
  decode (.bus 0x00040000#32) = .instr .rdStat ∧
  decode (.bus 0x01040000#32) = .instr .rdTxreq2 ∧
  decode (.bus 0x00A80000#32) = .instr .rdIf2Db2 ∧
  decode (.bus 0x80000041#32) = .instr (.wrCntl 0x0041#16) ∧
  decode (.bus 0x8034848C#32) = .instr (.wrIf1Arb2 0x848C#16) ∧
  decode (.bus 0x80200020#32) = .instr (.wrIf1Cmdreq 0x0020#16) ∧
  decode (.bus 0x8084007F#32) = .instr (.wrIf2Cmdmsk 0x007F#16) ∧
  decode (.cmd .if1 0xF0#8) = .instr (.xferWr .if1
    { mask := true, arb := true, ctrl := true, clrIntPnd := false, txRqstNewDat := false, dataA := false, dataB := false }) ∧
  decode (.cmd .if2 0x7F#8) = .instr (.xferRd .if2
    { mask := true, arb := true, ctrl := true, clrIntPnd := true, txRqstNewDat := true, dataA := true, dataB := true })

/-- R93: how every BUS word decodes, and that the admitted words are 37 reads and 27 writes with no two overlapping, which the spec
marks as derived from R91 and R92. -/
def Obligations.BusDecoding : Prop :=
  (∀ t : BitVec 32,
    (t.extractLsb' 28 3 ≠ 0#3 → decode (.bus t) = .rejected (.badOffset t.toNat)) ∧
    (t.extractLsb' 28 3 = 0#3 → (∀ r, regOffset r ≠ (t.extractLsb' 16 12).toNat) →
      decode (.bus t) = .rejected (.badOffset (t.extractLsb' 16 12).toNat)) ∧
    ∀ r, t.extractLsb' 28 3 = 0#3 → regOffset r = (t.extractLsb' 16 12).toNat →
      (t.getLsbD 31 = false → decode (.bus t) = .instr (readOp r)) ∧
      (t.getLsbD 31 = true → Safety.readOnly r = true → decode (.bus t) = .rejected (.roWrite r)) ∧
      (t.getLsbD 31 = true → Safety.readOnly r = false →
        ∃ i, writeOp r (t.extractLsb' 0 16) = some i ∧ decode (.bus t) = .instr i)) ∧
  (∀ r, r ∈ allRegs) ∧ allRegs.length = 37 ∧ (allRegs.filter (fun r => !Safety.readOnly r)).length = 27 ∧
  (∀ r q, regOffset r = regOffset q → r = q)

/-- Decoding an encoded operation gives it back, with every operand at every value; and every row that has an encoding has one for
each of its operations. -/
def Obligations.RoundTrip : Prop :=
  ∀ i, wellFormed i = true →
    (∀ c, encode i = some c → decode c = .instr i) ∧
    ((busOp i).isSome = true → (encode i).isSome = true) ∧
    (∀ k p, i = .xferWr k p ∨ i = .xferRd k p → (encode i).isSome = true)

/-- Every word that decodes is the encoding of what it decodes to, but for a read's DATA, which is ignored. -/
def Obligations.EncodeDecode : Prop :=
  (∀ t i, decode (.bus t) = .instr i →
    encode i = some (.bus (if t.getLsbD 31 then t else t &&& 0xFFFF0000#32))) ∧
  (∀ k c i, decode (.cmd k c) = .instr i → encode i = some (.cmd k c))

/-- R94: bit 7 of a command word selects the class, bits 6 to 0 are the part selects, all 256 values are legal, and a transfer without
part bits changes nothing but BUSY. -/
def Obligations.CommandWords : Prop :=
  (∀ k c, decode (.cmd k c) =
    .instr ((if c.getLsbD 7 then Instr.xferWr k else Instr.xferRd k)
      { mask := c.getLsbD 6, arb := c.getLsbD 5, ctrl := c.getLsbD 4, clrIntPnd := c.getLsbD 3, txRqstNewDat := c.getLsbD 2,
        dataA := c.getLsbD 1, dataB := c.getLsbD 0 })) ∧
  (∀ (s : State) k p, s.xferEnabled k = true →
    p = { mask := false, arb := false, ctrl := false, clrIntPnd := false, txRqstNewDat := false, dataA := false, dataB := false } →
    exec (.xferWr k p) s = .next (s.withBlock (s.block.setIface k { s.block.iface k with busy := false })) ∧
    exec (.xferRd k p) s = .next (s.withBlock (s.block.setIface k { s.block.iface k with busy := false })))

/-- R73, R75, R76: an access of any width at an offset from BASE. That the operation comes from a program on a turn is the model's
choice (log entries 1, 6). -/
def Obligations.AccessWidths : Prop :=
  ∀ (s : State) ts width write off data, s.clkEn = true → s.rst = false →
    Safety.Issues s (.access width write (s.params.base + off) data) ts →
    ((∀ r, regOffset r ≠ off) → step s = .next { Safety.issued s ts with refused := some (.badOffset off) }) ∧
    ∀ r, regOffset r = off →
      (width = .w8 → step s = .next { Safety.issued s ts with refused := some (.badWidth off) }) ∧
      (width ≠ .w8 → write = true → Safety.readOnly r = true →
        step s = .next { Safety.issued s ts with refused := some (.roWrite r) }) ∧
      (width ≠ .w8 → write = true → Safety.readOnly r = false →
        ∃ i, writeOp r (data.extractLsb' 0 16) = some i ∧ step s = exec i (Safety.issued s ts)) ∧
      (width = .w16 → write = false → step s = exec (readOp r) (Safety.issued s ts)) ∧
      (width = .w32 → write = false → ∃ t u,
        exec (readOp r) (Safety.issued s ts) = .next u ∧ step s = .next t ∧ t.block = u.block ∧
        (t.ctx s.running).rdata.extractLsb' 0 16 = (u.ctx s.running).rdata.extractLsb' 0 16)

/-! ### The step -/

/-- When the operation HOST_MAIN issues is a word that decodes to i, or the call i, step is exec of i at the state with the operation
taken off the program and the turn off the schedule; a word that is rejected refuses the machine; an environment action (R14, R293,
R305) sets the clock or the reset input at any time, the block keeping its state but for an asserted reset.
The program and the schedule are the model's choice (log
entries 1, 6), and so is that an entry which is the completion of a transfer or a dispatch, no operation of HOST_MAIN (R9), has no effect
(log entry 18). -/
def Obligations.StepRunsDecoded : Prop :=
  (∀ s ts t i, s.clkEn = true → s.rst = false → Safety.Issues s (.word t) ts → decode (.bus t) = .instr i → wellFormed i = true →
    step s = exec i (Safety.issued s ts)) ∧
  (∀ s ts i, (busOp i = none ∨ (s.clkEn = true ∧ s.rst = false)) → (∀ k p, i ≠ .xferWr k p ∧ i ≠ .xferRd k p) → i ≠ .dispatch →
    Safety.Issues s (.call i) ts → step s = exec i (Safety.issued s ts)) ∧
  (∀ s ts t e, s.clkEn = true → s.rst = false → Safety.Issues s (.word t) ts → decode (.bus t) = .rejected e →
    step s = .next { Safety.issued s ts with refused := some (refusalOf e) }) ∧
  (∀ s ts b, Safety.Issues s (.envClock b) ts → step s = .next { Safety.issued s ts with clkEn := b }) ∧
  (∀ s ts, Safety.Issues s (.envReset false) ts → step s = .next { Safety.issued s ts with rst := false }) ∧
  (∀ s ts, Safety.Issues s (.envReset true) ts → ∃ n b, step s = .next { Safety.issued s ts with rst := true, block := b, fresh := n } ∧
    b.cntl.init = true ∧ b.initPending = false ∧ b.statInt = false ∧ b.if1.busy = false ∧ b.if2.busy = false) ∧
  (∀ s ts i, (∃ k p, i = .xferWr k p ∨ i = .xferRd k p) ∨ i = .dispatch → Safety.Issues s (.call i) ts →
    step s = .next (Safety.issued s ts))

/-- A turn of XFER_k runs the transfer of the latched command word, a turn of HOST_IRQ the dispatch, each if it is enabled and else
nothing; a refused machine takes no step. The schedule is the model's choice (log entry 1). -/
def Obligations.StepRunsAgents : Prop :=
  (∀ (s : State) k ts, s.refused = none → s.turns = .xfer k :: ts →
    (s.xferEnabled k = true → step s = exec (decodeCmd k (s.block.iface k).cmd) { s with turns := ts }) ∧
    (s.xferEnabled k = false → step s = .next { s with turns := ts })) ∧
  (∀ (s : State) ts, s.refused = none → s.turns = .irq :: ts →
    (s.mayDispatch = true → step s = exec .dispatch { s with turns := ts }) ∧
    (s.mayDispatch = false → step s = .next { s with turns := ts })) ∧
  (∀ (s : State) m, s.refused = some m → step s = .refused .afterRefusal)

/-- R305: while the clock is off or reset is asserted no bus transaction has a step, no transfer and no protocol-engine step is
enabled, the block keeps its state but for a reset, a context whose next action is a transaction (a read, a write, or the poll of a wait)
stays where it is, and the host's environment actions, registration changes and callbacks still run.
That exec answers a fault
where there is no step is the model's choice (log entry 5). -/
def Obligations.GatedBlock : Prop :=
  ∀ s : State, s.clkEn = false ∨ s.rst = true →
    (∀ i, (busOp i).isSome = true → exec i s = .fault .notAdmitted) ∧
    (∀ k p, exec (.xferWr k p) s = .fault (.xferNotEnabled k) ∧ exec (.xferRd k p) s = .fault (.xferNotEnabled k)) ∧
    (∀ k, s.agentStep (.xfer k) = s) ∧ (∀ e, s.agentStep (.pe e) = s) ∧
    (∀ t, (s.agentStep t).block = s.block ∨ (t = .host ∧ (s.agentStep t).rst = true)) ∧
    (∀ m todo rest, ((∃ r k, m = .rd r k) ∨ (∃ r, m = .rdWide r) ∨ (∃ r v, m = .wr r v) ∨ (∃ k i, m = .spinBusy k i) ∨
      (∃ i b, m = .spinInit i b)) → s.refused = none → (s.ctx s.running).calls = .proc (m :: todo) :: rest →
      s.agentStep .host = s) ∧
    (∀ b todo rest, s.refused = none → (s.ctx s.running).calls = .proc (.envClock b :: todo) :: rest →
      (s.agentStep .host).clkEn = b) ∧
    (∀ b todo rest, s.refused = none → (s.ctx s.running).calls = .proc (.envReset b :: todo) :: rest →
      (s.agentStep .host).rst = b) ∧
    (∀ r todo rest, s.refused = none → (s.ctx s.running).calls = .proc (.setReg r :: todo) :: rest →
      (s.agentStep .host).reg = r) ∧
    (∀ b todo rest, s.refused = none → (s.ctx s.running).calls = .proc (.hostIe b :: todo) :: rest →
      (s.agentStep .host).hostIe = b) ∧
    (∀ e a f todo rest, s.refused = none → (s.ctx s.running).calls = .proc (.callback e a none :: todo) :: rest → s.reg.cb = some f →
      (s.agentStep .host).delivered = s.delivered ++ [{ cb := f, token := s.reg.token, event := e, arg := a }])

/-! ### Register reads -/

/-- R148: RD CNTL. -/
def Obligations.RdCntl : Prop :=
  ∀ s : State, s.clkEn = true → s.rst = false → ∃ w t, exec .rdCntl s = .next t ∧ Safety.ReadGave s s.block w t ∧
    w.getLsbD 7 = s.block.cntl.test ∧ w.getLsbD 6 = s.block.cntl.cce ∧ w.getLsbD 5 = s.block.cntl.dar ∧
    w.getLsbD 3 = s.block.cntl.eie ∧ w.getLsbD 2 = s.block.cntl.sie ∧ w.getLsbD 1 = s.block.cntl.ie ∧
    w.getLsbD 0 = (s.block.cntl.init || s.block.initPending)

/-- R142: RD STAT, which clears the status-interrupt latch. -/
def Obligations.RdStat : Prop :=
  ∀ s : State, s.clkEn = true → s.rst = false → ∃ w t, exec .rdStat s = .next t ∧
    Safety.ReadGave s { s.block with statInt := false } w t ∧
    w.getLsbD 7 = s.block.stat.boff ∧ w.getLsbD 6 = s.block.stat.ewarn ∧ w.getLsbD 5 = s.block.stat.epass ∧
    w.getLsbD 4 = s.block.stat.rxok ∧ w.getLsbD 3 = s.block.stat.txok ∧ w.extractLsb' 0 3 = s.block.stat.lec

/-- R149, with R35 to R37 and R39: reads of EC, BT, CLKDIV and TEST. -/
def Obligations.RdPlain : Prop :=
  ∀ s : State, s.clkEn = true → s.rst = false →
    (∃ t, exec .rdEc s = .next t ∧ Safety.ReadGave s s.block s.block.ec t) ∧
    (∃ w t, exec .rdBt s = .next t ∧ Safety.ReadGave s s.block w t ∧ w.extractLsb' 0 15 = s.block.bt) ∧
    (∃ t, exec .rdClkdiv s = .next t ∧ Safety.ReadGave s s.block s.block.clkdiv t) ∧
    (∃ w t, exec .rdTest s = .next t ∧ Safety.ReadGave s s.block w t ∧ w.extractLsb' 5 2 = 0#2 ∧
      (s.block.cntl.test = true →
        w.getLsbD 4 = s.block.test.lback ∧ w.getLsbD 3 = s.block.test.silent ∧ w.getLsbD 2 = false))

/-- R41: the eight bitmap registers, bit i - 1 of the first and bit i - 17 of the second for slot i. -/
def Obligations.RdBitmaps : Prop :=
  ∀ s : State, s.clkEn = true → s.rst = false →
    ∃ m1 m2 t1 t2 n1 n2 i1 i2 : Word,
      (∃ t, exec .rdMsgv1 s = .next t ∧ Safety.ReadGave s s.block m1 t) ∧
      (∃ t, exec .rdMsgv2 s = .next t ∧ Safety.ReadGave s s.block m2 t) ∧
      (∃ t, exec .rdTxreq1 s = .next t ∧ Safety.ReadGave s s.block t1 t) ∧
      (∃ t, exec .rdTxreq2 s = .next t ∧ Safety.ReadGave s s.block t2 t) ∧
      (∃ t, exec .rdNd1 s = .next t ∧ Safety.ReadGave s s.block n1 t) ∧
      (∃ t, exec .rdNd2 s = .next t ∧ Safety.ReadGave s s.block n2 t) ∧
      (∃ t, exec .rdIr1 s = .next t ∧ Safety.ReadGave s s.block i1 t) ∧
      (∃ t, exec .rdIr2 s = .next t ∧ Safety.ReadGave s s.block i2 t) ∧
      (∀ n : Slot, slotNumber n ≤ 16 →
        m1.getLsbD (slotNumber n - 1) = (s.block.obj n).msgval ∧ t1.getLsbD (slotNumber n - 1) = (s.block.obj n).txrqst ∧
        n1.getLsbD (slotNumber n - 1) = (s.block.obj n).newdat ∧ i1.getLsbD (slotNumber n - 1) = (s.block.obj n).intpnd) ∧
      (∀ n : Slot, 17 ≤ slotNumber n →
        m2.getLsbD (slotNumber n - 17) = (s.block.obj n).msgval ∧ t2.getLsbD (slotNumber n - 17) = (s.block.obj n).txrqst ∧
        n2.getLsbD (slotNumber n - 17) = (s.block.obj n).newdat ∧ i2.getLsbD (slotNumber n - 17) = (s.block.obj n).intpnd)

/-- R40: the value RD INT returns: 0x8000 while stat_int is set, else the least slot with INTPND, else 0. -/
def Obligations.RdInt : Prop :=
  ∀ s : State, s.clkEn = true → s.rst = false → ∃ w t, exec .rdInt s = .next t ∧ Safety.ReadGave s s.block w t ∧
    (s.block.statInt = true → w = 0x8000#16) ∧
    (∀ n : Slot, s.block.statInt = false → (s.block.obj n).intpnd = true → (∀ m : Slot, m < n → (s.block.obj m).intpnd = false) →
      w.toNat = slotNumber n) ∧
    (s.block.statInt = false → (∀ m : Slot, (s.block.obj m).intpnd = false) → w = 0#16)

/-- R151, R154: reads of the 11 registers of either interface: CMDREQ shows BUSY and the slot number at any time; the value of the others
is that of the register while no transfer is in flight, and is left open while one is. -/
def Obligations.RdInterface : Prop :=
  ∀ (s : State) (k : IfId), s.clkEn = true → s.rst = false →
    (∃ w t, exec (readOp (.iface k .cmdreq)) s = .next t ∧ Safety.ReadGave s s.block w t ∧
      w.getLsbD 15 = (s.block.iface k).busy ∧ w.extractLsb' 0 6 = (s.block.iface k).msgnum) ∧
    (∃ w t, exec (readOp (.iface k .cmdmsk)) s = .next t ∧ Safety.ReadGave s s.block w t ∧
      ((s.block.iface k).busy = false → w.extractLsb' 0 8 = (s.block.iface k).cmdmsk)) ∧
    (∃ w t, exec (readOp (.iface k .msk1)) s = .next t ∧ Safety.ReadGave s s.block w t ∧
      ((s.block.iface k).busy = false → w = (s.block.iface k).msk1)) ∧
    (∃ w t, exec (readOp (.iface k .msk2)) s = .next t ∧ Safety.ReadGave s s.block w t ∧
      ((s.block.iface k).busy = false → w &&& 0xDFFF#16 = (s.block.iface k).msk2 &&& 0xDFFF#16)) ∧
    (∃ w t, exec (readOp (.iface k .arb1)) s = .next t ∧ Safety.ReadGave s s.block w t ∧
      ((s.block.iface k).busy = false → w = (s.block.iface k).arb1)) ∧
    (∃ w t, exec (readOp (.iface k .arb2)) s = .next t ∧ Safety.ReadGave s s.block w t ∧
      ((s.block.iface k).busy = false → w = (s.block.iface k).arb2)) ∧
    (∃ w t, exec (readOp (.iface k .mctrl)) s = .next t ∧ Safety.ReadGave s s.block w t ∧
      ((s.block.iface k).busy = false → w &&& 0xFF8F#16 = (s.block.iface k).mctrl &&& 0xFF8F#16)) ∧
    (∃ w t, exec (readOp (.iface k .da1)) s = .next t ∧ Safety.ReadGave s s.block w t ∧
      ((s.block.iface k).busy = false → w = (s.block.iface k).da1)) ∧
    (∃ w t, exec (readOp (.iface k .da2)) s = .next t ∧ Safety.ReadGave s s.block w t ∧
      ((s.block.iface k).busy = false → w = (s.block.iface k).da2)) ∧
    (∃ w t, exec (readOp (.iface k .db1)) s = .next t ∧ Safety.ReadGave s s.block w t ∧
      ((s.block.iface k).busy = false → w = (s.block.iface k).db1)) ∧
    (∃ w t, exec (readOp (.iface k .db2)) s = .next t ∧ Safety.ReadGave s s.block w t ∧
      ((s.block.iface k).busy = false → w = (s.block.iface k).db2))

/-- R78, R79: no read has a side effect but that of STAT, for all 37 reads; and a second read of the register returns the same bits as
the first wherever the register is not open. -/
def Obligations.ReadFrame : Prop :=
  ∀ (r : Reg) (s t : State), exec (readOp r) s = .next t →
    t.block = (if r = .stat then { s.block with statInt := false } else s.block) ∧
    ({ t with block := s.block, fresh := s.fresh } : State) =
      s.setCtx s.running { s.ctx s.running with rdata := (t.ctx s.running).rdata } ∧
    ∃ u, exec (readOp r) t = .next u ∧
      (u.ctx s.running).rdata.extractLsb' 0 16 &&& ~~~ s.block.openBits r =
        (t.ctx s.running).rdata.extractLsb' 0 16 &&& ~~~ s.block.openBits r

/-! ### Register writes -/

/-- R147: WR CNTL. -/
def Obligations.WrCntl : Prop :=
  ∀ (s : State) (v : Word), s.clkEn = true → s.rst = false → ∃ b c, exec (.wrCntl v) s = .next (s.withBlock b) ∧
    b = { s.block with cntl := c, initPending := b.initPending } ∧
    c.test = v.getLsbD 7 ∧ c.cce = v.getLsbD 6 ∧ c.dar = v.getLsbD 5 ∧ c.eie = v.getLsbD 3 ∧ c.sie = v.getLsbD 2 ∧
    c.ie = v.getLsbD 1 ∧
    (v.getLsbD 0 = true → c.init = true ∧ b.initPending = false) ∧
    (v.getLsbD 0 = false → s.block.cntl.init = true → c.init = false ∧ b.initPending = true) ∧
    (v.getLsbD 0 = false → s.block.cntl.init = false → c.init = false ∧ b.initPending = s.block.initPending)

/-- R143: WR STAT, where a 0 clears TXOK or RXOK, LEC is stored, and the other bits are kept. -/
def Obligations.WrStat : Prop :=
  ∀ (s : State) (v : Word), s.clkEn = true → s.rst = false → ∃ x, exec (.wrStat v) s = .next (s.withBlock { s.block with stat := x }) ∧
    x.txok = (s.block.stat.txok && v.getLsbD 3) ∧ x.rxok = (s.block.stat.rxok && v.getLsbD 4) ∧ x.lec = v.extractLsb' 0 3 ∧
    x.boff = s.block.stat.boff ∧ x.ewarn = s.block.stat.ewarn ∧ x.epass = s.block.stat.epass

/-- R144, R145, R146: the protected writes of BT, CLKDIV and TEST. -/
def Obligations.ProtectedWrites : Prop :=
  ∀ (s : State) (v : Word), s.clkEn = true → s.rst = false →
    (s.block.cntl.init = true → s.block.cntl.cce = true →
      exec (.wrBt v) s = .next (s.withBlock { s.block with bt := v.extractLsb' 0 15 })) ∧
    (s.block.cntl.init = false ∨ s.block.cntl.cce = false →
      ∃ t, exec (.wrBt v) s = .next t ∧ Safety.Records s (.protectedWrite .bt v) t) ∧
    (s.block.cntl.init = true → exec (.wrClkdiv v) s = .next (s.withBlock { s.block with clkdiv := v })) ∧
    (s.block.cntl.init = false → ∃ t, exec (.wrClkdiv v) s = .next t ∧ Safety.Records s (.protectedWrite .clkdiv v) t) ∧
    (s.block.cntl.test = false → ∃ t, exec (.wrTest v) s = .next t ∧ Safety.Records s (.protectedWrite .test v) t) ∧
    (s.block.cntl.test = true → v.getLsbD 2 = true ∨ v.extractLsb' 5 2 ≠ 0#2 →
      ∃ t, exec (.wrTest v) s = .next t ∧ Safety.Records s (.unmodelledTest v) t) ∧
    (s.block.cntl.test = true → v.getLsbD 2 = false → v.extractLsb' 5 2 = 0#2 →
      exec (.wrTest v) s = .next (s.withBlock { s.block with test := { lback := v.getLsbD 4, silent := v.getLsbD 3 } }))

/-- R150: WR CMDREQ of either interface starts a transfer; busy is reported before a bad slot number (R265). -/
def Obligations.WrCmdreq : Prop :=
  ∀ (s : State) (k : IfId) (v : Word) (i : Instr), s.clkEn = true → s.rst = false →
    (k = .if1 ∧ i = .wrIf1Cmdreq v ∨ k = .if2 ∧ i = .wrIf2Cmdreq v) →
    ((s.block.iface k).busy = true → ∃ t, exec i s = .next t ∧ Safety.Records s (.ifBusy k .cmdreq) t) ∧
    ((s.block.iface k).busy = false → (v.extractLsb' 0 6).toNat = 0 ∨ 32 < (v.extractLsb' 0 6).toNat →
      ∃ t, exec i s = .next t ∧ Safety.Records s (.badMsgnum k (v.extractLsb' 0 6)) t) ∧
    (∀ n : Slot, (s.block.iface k).busy = false → (v.extractLsb' 0 6).toNat = slotNumber n →
      exec i s = .next (s.withBlock (s.block.setIface k
        { s.block.iface k with
          busy := true, slot := n, cmd := (s.block.iface k).cmdmsk, msgnum := v.extractLsb' 0 6 })))

/-- R152, R153: writes of the command mask and of the nine staging registers of either interface: the defined bits are stored while no
transfer is in flight, else the write is a fault. -/
def Obligations.WrStaging : Prop :=
  ∀ (s : State) (k : IfId) (v : Word), s.clkEn = true → s.rst = false →
    (∀ x i, x ≠ .cmdreq → writeOp (.iface k x) v = some i → (s.block.iface k).busy = true →
      ∃ t, exec i s = .next t ∧ Safety.Records s (.ifBusy k x) t) ∧
    ((s.block.iface k).busy = false →
      let f := s.block.iface k
      let gives := fun x g => ∃ i, writeOp (.iface k x) v = some i ∧ exec i s = .next (s.withBlock (s.block.setIface k g))
      gives .cmdmsk { f with cmdmsk := v.extractLsb' 0 8 } ∧ gives .msk1 { f with msk1 := v } ∧
      gives .msk2 { f with msk2 := v &&& 0xDFFF#16 } ∧ gives .arb1 { f with arb1 := v } ∧ gives .arb2 { f with arb2 := v } ∧
      gives .mctrl { f with mctrl := v &&& 0xFF8F#16 } ∧ gives .da1 { f with da1 := v } ∧ gives .da2 { f with da2 := v } ∧
      gives .db1 { f with db1 := v } ∧ gives .db2 { f with db2 := v })

/-- R141, R262, R264: what each of the 27 writes leaves unchanged; a write that is a fault changes nothing but the marks, which only
grow. -/
def Obligations.WriteFrame : Prop :=
  ∀ (r : Reg) (v : Word) (i : Instr) (s t : State), writeOp r v = some i → exec i s = .next t →
    ({ t with block := s.block, faults := s.faults } : State) = s ∧
    t.block.objs = s.block.objs ∧ t.block.ec = s.block.ec ∧ t.block.statInt = s.block.statInt ∧
    (r ≠ .cntl → t.block.cntl = s.block.cntl ∧ t.block.initPending = s.block.initPending) ∧
    (r ≠ .stat → t.block.stat = s.block.stat) ∧ (r ≠ .bt → t.block.bt = s.block.bt) ∧
    (r ≠ .clkdiv → t.block.clkdiv = s.block.clkdiv) ∧ (r ≠ .test → t.block.test = s.block.test) ∧
    (∀ k, (∀ x, r ≠ .iface k x) → t.block.iface k = s.block.iface k) ∧
    (∀ k, r ≠ .iface k .cmdreq → (t.block.iface k).busy = (s.block.iface k).busy) ∧
    (∀ g, g ∈ s.faults → g ∈ t.faults) ∧ (t.faults ≠ s.faults → t.block = s.block)

/-! ### Transfers -/

/-- R161 to R166, R169: a write transfer of interface k for the parts p: every field of the addressed object, and that nothing else
changes but BUSY. -/
def Obligations.XferWr : Prop :=
  ∀ (s : State) (k : IfId) (p : Parts), s.xferEnabled k = true → ∃ o' : Obj,
    let f := s.block.iface k
    let o := s.block.obj f.slot
    exec (.xferWr k p) s = .next (s.withBlock ((s.block.setObj f.slot o').setIface k { f with busy := false })) ∧
    o'.msk.toNat = (if p.mask then (f.msk2.extractLsb' 0 13).toNat * 65536 + f.msk1.toNat else o.msk.toNat) ∧
    o'.mxtd = (if p.mask then f.msk2.getLsbD 15 else o.mxtd) ∧
    o'.mdir = (if p.mask then f.msk2.getLsbD 14 else o.mdir) ∧
    o'.id.toNat = (if p.arb then (f.arb2.extractLsb' 0 13).toNat * 65536 + f.arb1.toNat else o.id.toNat) ∧
    o'.msgval = (if p.arb then f.arb2.getLsbD 15 else o.msgval) ∧
    o'.xtd = (if p.arb then f.arb2.getLsbD 14 else o.xtd) ∧
    o'.dir = (if p.arb then f.arb2.getLsbD 13 else o.dir) ∧
    o'.newdat = (if p.ctrl then f.mctrl.getLsbD 15 else o.newdat) ∧
    o'.msglst = (if p.ctrl then f.mctrl.getLsbD 14 else o.msglst) ∧
    o'.intpnd = (if p.ctrl then f.mctrl.getLsbD 13 else o.intpnd) ∧
    o'.umask = (if p.ctrl then f.mctrl.getLsbD 12 else o.umask) ∧
    o'.txie = (if p.ctrl then f.mctrl.getLsbD 11 else o.txie) ∧
    o'.rxie = (if p.ctrl then f.mctrl.getLsbD 10 else o.rxie) ∧
    o'.rmten = (if p.ctrl then f.mctrl.getLsbD 9 else o.rmten) ∧
    o'.txrqst = (if p.txRqstNewDat then true else if p.ctrl then f.mctrl.getLsbD 8 else o.txrqst) ∧
    o'.eob = (if p.ctrl then f.mctrl.getLsbD 7 else o.eob) ∧
    o'.dlc = (if p.ctrl then f.mctrl.extractLsb' 0 4 else o.dlc) ∧
    o'.data =
      #v[if p.dataA then f.da1.extractLsb' 0 8 else o.data[0], if p.dataA then f.da1.extractLsb' 8 8 else o.data[1],
         if p.dataA then f.da2.extractLsb' 0 8 else o.data[2], if p.dataA then f.da2.extractLsb' 8 8 else o.data[3],
         if p.dataB then f.db1.extractLsb' 0 8 else o.data[4], if p.dataB then f.db1.extractLsb' 8 8 else o.data[5],
         if p.dataB then f.db2.extractLsb' 0 8 else o.data[6], if p.dataB then f.db2.extractLsb' 8 8 else o.data[7]]

/-- R167, R168, R169: a read transfer of interface k for the parts p: every staging register, the two clears, applied after the
copies, and that nothing else changes but BUSY. Bit 13 of MSK2 is reserved and is left out. -/
def Obligations.XferRd : Prop :=
  ∀ (s : State) (k : IfId) (p : Parts), s.xferEnabled k = true → ∃ f' : Iface,
    let f := s.block.iface k
    let o := s.block.obj f.slot
    exec (.xferRd k p) s = .next (s.withBlock
      ((s.block.setObj f.slot { o with intpnd := o.intpnd && !p.clrIntPnd, newdat := o.newdat && !p.txRqstNewDat }).setIface k f')) ∧
    f' = { f' with busy := false, slot := f.slot, cmd := f.cmd, msgnum := f.msgnum, cmdmsk := f.cmdmsk } ∧
    (p.mask = false → f'.msk1 = f.msk1 ∧ f'.msk2 = f.msk2) ∧
    (p.mask = true → f'.msk1 = o.msk.extractLsb' 0 16 ∧ f'.msk2.extractLsb' 0 13 = o.msk.extractLsb' 16 13 ∧
      f'.msk2.getLsbD 15 = o.mxtd ∧ f'.msk2.getLsbD 14 = o.mdir) ∧
    (p.arb = false → f'.arb1 = f.arb1 ∧ f'.arb2 = f.arb2) ∧
    (p.arb = true → f'.arb1 = o.id.extractLsb' 0 16 ∧ f'.arb2.extractLsb' 0 13 = o.id.extractLsb' 16 13 ∧
      f'.arb2.getLsbD 15 = o.msgval ∧ f'.arb2.getLsbD 14 = o.xtd ∧ f'.arb2.getLsbD 13 = o.dir) ∧
    (p.ctrl = false → f'.mctrl = f.mctrl) ∧
    (p.ctrl = true → f'.mctrl.getLsbD 15 = o.newdat ∧ f'.mctrl.getLsbD 14 = o.msglst ∧ f'.mctrl.getLsbD 13 = o.intpnd ∧
      f'.mctrl.getLsbD 12 = o.umask ∧ f'.mctrl.getLsbD 11 = o.txie ∧ f'.mctrl.getLsbD 10 = o.rxie ∧
      f'.mctrl.getLsbD 9 = o.rmten ∧ f'.mctrl.getLsbD 8 = o.txrqst ∧ f'.mctrl.getLsbD 7 = o.eob ∧
      f'.mctrl.extractLsb' 4 3 = 0#3 ∧ f'.mctrl.extractLsb' 0 4 = o.dlc) ∧
    f'.da1.toNat = (if p.dataA then o.data[0].toNat + 256 * o.data[1].toNat else f.da1.toNat) ∧
    f'.da2.toNat = (if p.dataA then o.data[2].toNat + 256 * o.data[3].toNat else f.da2.toNat) ∧
    f'.db1.toNat = (if p.dataB then o.data[4].toNat + 256 * o.data[5].toNat else f.db1.toNat) ∧
    f'.db2.toNat = (if p.dataB then o.data[6].toNat + 256 * o.data[7].toNat else f.db2.toNat)

/-! ### Functions -/

/-- R120 to R122, R126, R127: bt_calc takes the least prescaler p from bw / 24 up to bw / 4 for which bw is a multiple of p + 1 with 4 to
25 quanta, packs its segments, and gives 0 if there is none or it exceeds 63. -/
def Obligations.BtSearch : Prop :=
  ∀ (s : State) (clk rate rjw : Nat), rjw ≤ 3 → ∃ w : BitVec 32,
    exec (.btcalc clk rate rjw) s = .next (s.setCtx s.running { s.ctx s.running with ret := .timing w }) ∧
    (rate = 0 → w = 0#32) ∧
    let fits := fun p => clk / rate / 24 ≤ p ∧ p < clk / rate / 4 ∧ (p + 1) ∣ clk / rate ∧ 4 ≤ clk / rate / (p + 1) ∧
      clk / rate / (p + 1) ≤ 25
    ((∀ p, ¬ fits p) → w = 0#32) ∧
    (∀ p, rate ≠ 0 → fits p → (∀ q, q < p → ¬ fits q) → 63 < p → w = 0#32) ∧
    (∀ p, rate ≠ 0 → fits p → (∀ q, q < p → ¬ fits q) → p ≤ 63 →
      w.toNat = (tsegTable (clk / rate / (p + 1) - 3)).2 * 4096 + (tsegTable (clk / rate / (p + 1) - 3)).1 * 256 + rjw * 64 + p)

/-- R129: the properties of bt_calc, with the fields read back as R131 gives them; and R131 for every timing word: its fields, the bit
period, which is the bit width of a result, and the sample point. -/
def Obligations.BtProperties : Prop :=
  (∀ w : BitVec 32, ∃ tseg2 tseg1 brp clkdiv : Nat,
    tseg2 = w.toNat / 4096 % 8 ∧ tseg1 = w.toNat / 256 % 16 ∧ brp = w.toNat % 64 ∧ clkdiv = w.toNat / 65536 ∧
    btDecode w = { clkdiv := clkdiv, tseg2 := tseg2, tseg1 := tseg1, sjw := w.toNat / 64 % 4, brp := brp } ∧
    bitPeriod (btDecode w) = (tseg1 + tseg2 + 3) * (brp + 1) * (clkdiv + 1) ∧
    samplePoint (btDecode w) * ((tseg1 + tseg2 + 3 : Nat) : Rat) = ((tseg1 + 2 : Nat) : Rat)) ∧
  ∀ (s t : State) (clk rate rjw : Nat) (w : BitVec 32), rjw ≤ 3 → rate ≠ 0 →
    exec (.btcalc clk rate rjw) s = .next t → (t.ctx s.running).ret = .timing w →
    (w ≠ 0#32 ↔ ∃ p x, searchPrescaler (clk / rate) (clk / rate / 24) (clk / rate / 4 - clk / rate / 24) = some (p, x) ∧ p ≤ 63) ∧
    (w ≠ 0#32 → w.extractLsb' 15 17 = 0#17 ∧ (w.extractLsb' 6 2).toNat = rjw ∧ 1 ≤ (w.extractLsb' 8 4).toNat ∧
      ((w.extractLsb' 8 4).toNat + (w.extractLsb' 12 3).toNat + 3) * ((w.extractLsb' 0 6).toNat + 1) = clk / rate) ∧
    ((∀ p x, 1 ≤ x → x ≤ 22 → p ≤ 63 → (x + 3) * (p + 1) ≠ clk / rate) → w = 0#32) ∧
    (w ≠ 0#32 → w.extractLsb' 0 16 ≠ 0#16) ∧
    (w ≠ 0#32 → bitPeriod (btDecode w) = clk / rate)

/-- R124, R125: each row of the segment table keeps the sum and the field widths, and is the criterion's choice: no other split is
nearer to 75 %, and on a tie TSEG1 is the larger. The table is the spec's reconstruction
(D23; log entry 13). -/
def Obligations.SegmentTable : Prop :=
  ∀ x, 1 ≤ x → x ≤ 22 →
    (tsegTable x).1 + (tsegTable x).2 = x ∧ 1 ≤ (tsegTable x).1 ∧ (tsegTable x).1 ≤ 15 ∧ (tsegTable x).2 ≤ 7 ∧
    ∀ t2, t2 ≤ 7 → 1 ≤ x - t2 → x - t2 ≤ 15 →
      let far := fun t1 : Nat => (4 * ((t1 : Int) + 2) - 3 * ((x : Int) + 3)).natAbs
      far (tsegTable x).1 < far (x - t2) ∨ (far (tsegTable x).1 = far (x - t2) ∧ x - t2 ≤ (tsegTable x).1)

/-- R190: pack_filter, its words as numbers. -/
def Obligations.PackFilter : Prop :=
  ∀ (s : State) (id mask : Nat),
    (id ≤ 0x1FFFFFFF → mask ≤ 0x1FFFFFFF → ∃ m1 m2 a1 a2 : Word,
      exec (.packFilter id mask .ext) s =
        .next (s.setCtx s.running { s.ctx s.running with ret := .filterWords m1 m2 a1 a2 }) ∧
      a1.toNat = id % 65536 ∧ a2.toNat = 0x8000 + 0x4000 + id / 65536 ∧ m1.toNat = mask % 65536 ∧
      m2.toNat = 0x8000 + mask / 65536) ∧
    (id ≤ 0x7FF → mask ≤ 0x7FF → ∃ m1 m2 a1 a2 : Word,
      exec (.packFilter id mask .std) s =
        .next (s.setCtx s.running { s.ctx s.running with ret := .filterWords m1 m2 a1 a2 }) ∧
      a1.toNat = 0 ∧ a2.toNat = 0x8000 + id * 4 ∧ m1.toNat = 0 ∧ m2.toNat = mask * 4)

/-- R200, R201: pack_tx, its words as numbers. -/
def Obligations.PackTx : Prop :=
  ∀ (s : State) (f : Frame), f.id ≤ f.fmt.maxId → f.len ≤ 8 → ∃ m1 m2 a1 a2 c d1 d2 d3 d4 : Word,
    exec (.packTx f) s = .next (s.setCtx s.running { s.ctx s.running with ret := .txWords m1 m2 a1 a2 c d1 d2 d3 d4 }) ∧
    (f.fmt = .ext → a1.toNat = f.id % 65536 ∧
      a2.toNat = 0x8000 + 0x4000 + (if f.type = .remote then 0x2000 else 0) + f.id / 65536 ∧ m1.toNat = 0 ∧ m2.toNat = 0x8000) ∧
    (f.fmt = .std → a1.toNat = 0 ∧ a2.toNat = 0x8000 + (if f.type = .remote then 0x2000 else 0) + f.id * 4 ∧ m1.toNat = 0 ∧
      m2.toNat = 0) ∧
    c.toNat = 0x1180 + f.len ∧
    d1.toNat = f.data[0].toNat + 256 * f.data[1].toNat ∧ d2.toNat = f.data[2].toNat + 256 * f.data[3].toNat ∧
    d3.toNat = f.data[4].toNat + 256 * f.data[5].toNat ∧ d4.toNat = f.data[6].toNat + 256 * f.data[7].toNat

/-- R215, R216: unpack_rx. -/
def Obligations.UnpackRx : Prop :=
  ∀ (s : State) (a1 a2 c d1 d2 d3 d4 : Word), ∃ f : Frame,
    exec (.unpackRx a1 a2 c d1 d2 d3 d4) s = .next (s.setCtx s.running { s.ctx s.running with ret := .frame f }) ∧
    (a2.getLsbD 14 = true → f.fmt = .ext ∧ f.id = a2.toNat % 8192 * 65536 + a1.toNat) ∧
    (a2.getLsbD 14 = false → f.fmt = .std ∧ f.id = a2.toNat / 4 % 2048) ∧
    (a2.getLsbD 13 = true → f.type = .remote) ∧ (a2.getLsbD 13 = false → f.type = .data) ∧ f.len = c.toNat % 16 ∧
    f.data[0].toNat = d1.toNat % 256 ∧ f.data[1].toNat = d1.toNat / 256 ∧ f.data[2].toNat = d2.toNat % 256 ∧
    f.data[3].toNat = d2.toNat / 256 ∧ f.data[4].toNat = d3.toNat % 256 ∧ f.data[5].toNat = d3.toNat / 256 ∧
    f.data[6].toNat = d4.toNat % 256 ∧ f.data[7].toNat = d4.toNat / 256

/-- R128, R192, R202, R219, R261: a call outside its operand domain is refused before any transaction, with the procedure recorded.
That PACK_TX has the domain of R202 is the model's reading (log entry 15). -/
def Obligations.DomainRefusals : Prop :=
  ∀ s : State,
    (∀ clk rate rjw, 3 < rjw →
      exec (.btcalc clk rate rjw) s = .next { s with refused := some (.argDomain .btcalc (.rjw rjw)) }) ∧
    (∀ id mask fmt, fmt.maxId < id ∨ fmt.maxId < mask →
      ∃ o, exec (.packFilter id mask fmt) s = .next { s with refused := some (.argDomain .packFilter o) }) ∧
    (∀ id mask fmt slot, s.refused = none → fmt.maxId < id ∨ fmt.maxId < mask ∨ 32 < slot →
      ∃ o, exec (.installFilter id mask fmt slot) s = .next { s with refused := some (.argDomain .installFilter o) }) ∧
    (∀ f : Frame, f.fmt.maxId < f.id ∨ 8 < f.len →
      ∃ o, exec (.packTx f) s = .next { s with refused := some (.argDomain .packTx o) }) ∧
    (∀ (f : Frame) flags, s.refused = none → f.fmt.maxId < f.id ∨ 8 < f.len →
      ∃ o, exec (.send f flags) s = .next { s with refused := some (.argDomain .send o) }) ∧
    (∀ slot, s.refused = none → 32 < slot →
      exec (.receive slot) s = .next { s with refused := some (.argDomain .receive (.slot slot)) })

/-! ### Host procedures -/

/-- R170: SPIN polls until BUSY reads 0. After j failing polls within the bound it returns OK at the next; at the bound it returns
Stall without a further transaction; without a bound it is still polling after any number of failing polls.
The schedule is the model's choice (log entries 1, 7). -/
def Obligations.Spin : Prop :=
  ∀ (s : State) (k : IfId), Safety.Ready s →
    (∀ ts, (s.block.iface k).busy = false → s.turns = .host :: ts →
      ∃ t, exec (.spin k) s = .next t ∧ Safety.Returned s s.block ts .ok t) ∧
    (∀ j ts, (s.block.iface k).busy = true → (∀ m, s.params.maxSpin = some m → j < m) →
      s.turns = Safety.hosts j ++ [.xfer k, .host] ++ ts →
      ∃ t, exec (.spin k) s = .next t ∧
        Safety.Returned s (s.block.transferDone k (s.block.iface k).cmd) ts .ok t) ∧
    (∀ m ts, (s.block.iface k).busy = true → s.params.maxSpin = some m → s.turns = Safety.hosts (max m 1) ++ ts →
      ∃ t, exec (.spin k) s = .next t ∧ Safety.Returned s s.block ts .stall t) ∧
    (∀ j, (s.block.iface k).busy = true → s.params.maxSpin = none → s.turns = Safety.hosts j →
      ∃ t, exec (.spin k) s = .next t ∧ t.block = s.block ∧
        (t.ctx s.running).calls = .proc [.spinBusy k j, .ret .ok] :: (s.ctx s.running).calls)

/-- R171: TRANSFER k, n, c. On an idle interface with a slot number in 1..32 the command is latched, the parts it selects move, and the call
returns OK; with one outside the fault is recorded and the call goes on to its second wait. The slot number is n[5:0], as R150 has it; that
an n of 64 or more is read so is the model's choice (log entry 29).
The schedule is the model's choice (log entries 1, 7). -/
def Obligations.Transfer : Prop :=
  ∀ (s : State) (k : IfId) (n : Word) (c : Byte), Safety.Ready s → (s.block.iface k).busy = false →
    (∀ (m : Slot) ts, (n.extractLsb' 0 6).toNat = slotNumber m → s.turns = Safety.transferTurns k ++ ts →
      ∃ t, exec (.transfer k n c) s = .next t ∧
        Safety.Returned s ((s.block.setIface k
          { s.block.iface k with busy := true, slot := m, cmd := c, cmdmsk := c, msgnum := n.extractLsb' 0 6 }).transferDone k c)
          ts .ok t) ∧
    (∀ ts, (n.extractLsb' 0 6).toNat = 0 ∨ 32 < (n.extractLsb' 0 6).toNat → s.turns = Safety.hosts 4 ++ ts →
      ∃ t u, exec (.transfer k n c) s = .next t ∧ Safety.Records s (.badMsgnum k (n.extractLsb' 0 6)) u ∧
        Safety.Returned u (s.block.setIface k { s.block.iface k with cmdmsk := c }) ts .ok t)

/-- R203, R218, R230: CLR_TXOK, CLR_RXOK, SET_CNTL and CLR_CNTL, run without another agent's step between their two transactions.
The schedule is the model's choice (log entries 1, 7); the rules give no result, and that each returns OK is the model's reading (log
entry 17). -/
def Obligations.ReadModifyWrites : Prop :=
  ∀ (s : State) ts, Safety.Ready s → s.turns = .host :: .host :: ts →
    (∃ t, exec .clrTxok s = .next t ∧
      Safety.Returned s { s.block with stat := { s.block.stat with txok := false }, statInt := false } ts .ok t) ∧
    (∃ t, exec .clrRxok s = .next t ∧
      Safety.Returned s { s.block with stat := { s.block.stat with rxok := false }, statInt := false } ts .ok t) ∧
    (∀ m : Word, ∃ t, exec (.setCntl m) s = .next t ∧
      Safety.Returned s { s.block with
        cntl := { test := s.block.cntl.test || m.getLsbD 7, cce := s.block.cntl.cce || m.getLsbD 6,
                  dar := s.block.cntl.dar || m.getLsbD 5, eie := s.block.cntl.eie || m.getLsbD 3,
                  sie := s.block.cntl.sie || m.getLsbD 2, ie := s.block.cntl.ie || m.getLsbD 1,
                  init := s.block.cntl.init || s.block.initPending || m.getLsbD 0 }
        initPending := false } ts .ok t) ∧
    (∀ m : Word, ∃ t, exec (.clrCntl m) s = .next t ∧
      Safety.Returned s { s.block with
        cntl := { test := s.block.cntl.test && !m.getLsbD 7, cce := s.block.cntl.cce && !m.getLsbD 6,
                  dar := s.block.cntl.dar && !m.getLsbD 5, eie := s.block.cntl.eie && !m.getLsbD 3,
                  sie := s.block.cntl.sie && !m.getLsbD 2, ie := s.block.cntl.ie && !m.getLsbD 1,
                  init := (s.block.cntl.init || s.block.initPending) && !m.getLsbD 0 }
        initPending := (s.block.cntl.init || s.block.initPending) && m.getLsbD 0 } ts .ok t)

/-- R231, R170: ENABLE returns OK after one read if INIT reads 0; else it releases INIT, keeps the other bits, and polls: it returns OK once
the acknowledgment has come within the bound, returns Stall at the bound, and without a bound is still polling after any number of
failing polls. The schedule is the model's choice (log entries 1, 7). -/
def Obligations.Enable : Prop :=
  ∀ s : State, Safety.Ready s →
    (∀ ts, s.turns = Safety.enableTurns s.block ++ ts →
      ∃ t, exec .enable s = .next t ∧ Safety.Returned s (Safety.enabled s.block) ts .ok t ∧
        (s.block.initReads = false → t.block = s.block) ∧ t.block.initReads = false) ∧
    (∀ j ts, s.block.initReads = true → (∀ m, s.params.maxSpin = some m → j < m) →
      s.turns = Safety.hosts (2 + j) ++ [.pe .initAck, .host] ++ ts →
      ∃ t, exec .enable s = .next t ∧ Safety.Returned s (Safety.enabled s.block) ts .ok t) ∧
    (∀ m ts, s.block.initReads = true → s.params.maxSpin = some m → s.turns = Safety.hosts 2 ++ Safety.stallTurns m ++ ts →
      ∃ t, exec .enable s = .next t ∧ Safety.Returned s (Safety.released s.block) ts .stall t) ∧
    (∀ j, s.block.initReads = true → s.params.maxSpin = none → s.turns = Safety.hosts (2 + j) →
      ∃ t, exec .enable s = .next t ∧ t.block = Safety.released s.block ∧
        (t.ctx s.running).calls = .proc [.spinInit j false, .ret .ok] :: (s.ctx s.running).calls)

/-- R232: INSTALL_TEMPLATES writes the template into every object but its data bytes, and returns OK.
The schedule is the model's choice (log entries 1, 7). -/
def Obligations.InstallTemplates : Prop :=
  ∀ (s : State) ts, Safety.Ready s → s.block.if1.busy = false → s.turns = Safety.templateTurns ++ ts →
    ∃ t b, exec .installTemplates s = .next t ∧ Safety.Returned s b ts .ok t ∧
      (∀ n, b.obj n = Safety.template s.params.templateValid n (s.block.obj n)) ∧
      b.if1.busy = false ∧ { b with if1 := s.block.if1, objs := s.block.objs } = s.block

/-- R130: SET_BITRATE. An unsatisfiable rate returns 0 and writes nothing; else BT and CLKDIV take the timing word, CCE is left 0, INIT
is left as it read, and an enabled controller is enabled again once the acknowledgment has come; if it does not come within the bound the
call returns Stall. The schedule is the model's choice (log entries 1, 7). -/
def Obligations.SetBitrate : Prop :=
  ∀ (s : State) (rate : Nat), Safety.Ready s →
    let w := btCalc s.params.clkHz rate 0
    (w = 0#32 → ∃ t, exec (.setBitrate rate) s = .next t ∧ Safety.Returned s s.block s.turns (.fail .btUnsatisfiable) t) ∧
    (∀ ts, w ≠ 0#32 →
      s.turns = Safety.hosts 5 ++ (if s.block.initReads then [] else [.pe .initAck, .host]) ++ ts →
      ∃ t, exec (.setBitrate rate) s = .next t ∧
        Safety.Returned s { s.block with
          bt := w.extractLsb' 0 15, clkdiv := w.extractLsb' 16 16
          cntl := { s.block.cntl with cce := false, init := s.block.initReads }, initPending := false } ts (.value 1) t) ∧
    (∀ m ts, w ≠ 0#32 → s.block.initReads = false → s.params.maxSpin = some m →
      s.turns = Safety.hosts 5 ++ Safety.stallTurns m ++ ts →
      ∃ t, exec (.setBitrate rate) s = .next t ∧
        Safety.Returned s { s.block with
          bt := w.extractLsb' 0 15, clkdiv := w.extractLsb' 16 16
          cntl := { s.block.cntl with cce := false, init := false }, initPending := true } ts .stall t)

/-- R192, R193, R195, R196: INSTALL_FILTER into an explicit slot: the object holds the filter and keeps its data bytes, every other
object is unchanged, and the slot is returned. The schedule is the model's choice (log entries 1, 7). -/
def Obligations.InstallFilter : Prop :=
  ∀ (s : State) (id mask : Nat) (fmt : Fmt) (n : Slot) ts, Safety.Ready s → id ≤ fmt.maxId → mask ≤ fmt.maxId →
    s.block.if1.busy = false → s.turns = Safety.hosts 5 ++ Safety.transferTurns .if1 ++ ts →
    ∃ t b o, exec (.installFilter id mask fmt (slotNumber n)) s = .next t ∧
      Safety.Returned s b ts (.value (slotNumber n)) t ∧ b.obj n = o ∧
      o.id.toNat = (if fmt = .ext then id else id * 262144) ∧ o.msk.toNat = (if fmt = .ext then mask else mask * 262144) ∧
      o = { o with
        msgval := true, xtd := decide (fmt = .ext), dir := false, mxtd := decide (fmt = .ext), mdir := false, newdat := false,
        msglst := false, intpnd := false, umask := true, txie := false, rxie := false, rmten := false, txrqst := false,
        eob := true, dlc := 8#4, data := (s.block.obj n).data } ∧
      (∀ m, m ≠ n → b.obj m = s.block.obj m) ∧ b.if1.busy = false ∧
      { b with if1 := s.block.if1, objs := s.block.objs } = s.block

/-- R193 step 1, R196: INSTALL_FILTER without a slot takes the least of slots 1..31 whose MSGVAL is 0 and then does what it does for
that slot given explicitly; with none free it returns 0 and nothing is written. The schedule is the model's choice (log entries 1, 7). -/
def Obligations.InstallFilterScan : Prop :=
  ∀ (s : State) (id mask : Nat) (fmt : Fmt), Safety.Ready s → id ≤ fmt.maxId → mask ≤ fmt.maxId →
    (∀ (n : Slot) ts, n.val ≤ 30 → (s.block.obj n).msgval = false → (∀ m : Slot, m < n → (s.block.obj m).msgval = true) →
      s.block.if1.busy = false → s.turns = Safety.hosts 7 ++ Safety.transferTurns .if1 ++ ts →
      ∃ t u b, exec (.installFilter id mask fmt 0) s = .next t ∧ Safety.Returned s b ts (.value (slotNumber n)) t ∧
        exec (.installFilter id mask fmt (slotNumber n)) { s with turns := s.turns.drop 2 } = .next u ∧ u.block = b) ∧
    (∀ ts, (∀ m : Slot, m.val ≤ 30 → (s.block.obj m).msgval = true) → s.turns = .host :: .host :: ts →
      ∃ t, exec (.installFilter id mask fmt 0) s = .next t ∧
        Safety.Returned s s.block ts (.fail .noFreeFilterSlot) t)

/-- R204, R208: SEND ensures the controller is enabled, returns 0 and writes nothing more while slot 32 is pending, and else leaves the
frame in slot 32 with its transmission requested, clears TXOK, and returns 1; it returns Stall, with nothing more written, if ENABLE
stalls. The schedule is the model's choice (log entries 1, 7). -/
def Obligations.Send : Prop :=
  ∀ (s : State) (f : Frame) (flags : Nat) ts, Safety.Ready s → f.id ≤ f.fmt.maxId → f.len ≤ 8 →
    ((s.block.obj 31).txrqst = true → s.turns = Safety.enableTurns s.block ++ .host :: ts →
      ∃ t, exec (.send f flags) s = .next t ∧ Safety.Returned s (Safety.enabled s.block) ts (.fail .txSlotBusy) t) ∧
    ((s.block.obj 31).txrqst = false → s.block.if1.busy = false →
      s.turns = Safety.enableTurns s.block ++ Safety.hosts 10 ++ Safety.transferTurns .if1 ++ Safety.hosts 2 ++ ts →
      ∃ t b o, exec (.send f flags) s = .next t ∧ Safety.Returned s b ts (.value 1) t ∧ b.obj 31 = o ∧
        o.id.toNat = (if f.fmt = .ext then f.id else f.id * 262144) ∧ o.dlc.toNat = f.len ∧
        o = { o with
          msgval := true, xtd := decide (f.fmt = .ext), dir := decide (f.type = .remote), mxtd := decide (f.fmt = .ext),
          mdir := false, msk := 0#29, newdat := false, msglst := false, intpnd := false, umask := true, txie := false,
          rxie := false, rmten := false, txrqst := true, eob := true, data := f.data } ∧
        (∀ m, m ≠ 31 → b.obj m = s.block.obj m) ∧ b.if1.busy = false ∧
        { b with if1 := s.block.if1, objs := s.block.objs } =
          { Safety.enabled s.block with stat := { s.block.stat with txok := false }, statInt := false }) ∧
    (∀ m, s.block.initReads = true → s.params.maxSpin = some m → s.turns = Safety.hosts 2 ++ Safety.stallTurns m ++ ts →
      ∃ t, exec (.send f flags) s = .next t ∧ Safety.Returned s (Safety.released s.block) ts .stall t)

/-- R206, R222: TX_STATUS reads slot 32's pending bit, and the two error counts are the fields of EC; none of them changes the
block. The schedule is the model's choice (log entries 1, 7). -/
def Obligations.StatusCalls : Prop :=
  ∀ (s : State) ts, Safety.Ready s → s.turns = .host :: ts →
    (∃ t, exec .txStatus s = .next t ∧
      Safety.Returned s s.block ts (.tx (if (s.block.obj 31).txrqst then .busy else .idle)) t) ∧
    (∃ t r, exec .rxErrCount s = .next t ∧ Safety.Returned s s.block ts (.byte r) t ∧
      r.toNat = s.block.ec.toNat / 256 % 128) ∧
    (∃ t r, exec .txErrCount s = .next t ∧ Safety.Returned s s.block ts (.byte r) t ∧ r.toNat = s.block.ec.toNat % 256)

/-- R219, R221: RECEIVE of an explicit slot ensures the controller is enabled, reads the object whether or not it holds new data,
clears its NEWDAT and INTPND and RXOK, and returns the frame it holds, its length verbatim; of any slot or none it returns Stall, with
nothing more written, if ENABLE stalls.
The schedule is the model's choice (log entries 1, 7). -/
def Obligations.Receive : Prop :=
  (∀ (s : State) (n : Slot) ts, Safety.Ready s → s.block.if2.busy = false →
    s.turns = Safety.enableTurns s.block ++ Safety.transferTurns .if2 ++ Safety.hosts 9 ++ ts →
    ∃ t b f, exec (.receive (slotNumber n)) s = .next t ∧ Safety.Returned s b ts (.frame f) t ∧
      let o := s.block.obj n
      f.fmt = (if o.xtd then .ext else .std) ∧ f.id = (if o.xtd then o.id.toNat else o.id.toNat / 262144) ∧
      f.type = (if o.dir then .remote else .data) ∧ f.len = o.dlc.toNat ∧ f.data = o.data ∧
      b.obj n = { o with newdat := false, intpnd := false } ∧ (∀ m, m ≠ n → b.obj m = s.block.obj m) ∧ b.if2.busy = false ∧
      { b with if2 := s.block.if2, objs := s.block.objs } =
        { Safety.enabled s.block with stat := { s.block.stat with rxok := false }, statInt := false }) ∧
  (∀ (s : State) (slot m : Nat) ts, Safety.Ready s → slot ≤ 32 → s.block.initReads = true → s.params.maxSpin = some m →
    s.turns = Safety.hosts 2 ++ Safety.stallTurns m ++ ts →
    ∃ t, exec (.receive slot) s = .next t ∧ Safety.Returned s (Safety.released s.block) ts .stall t)

/-- R219 step 2, R221: RECEIVE without a slot takes the least of slots 1..31 with NEWDAT and then does what it does for that slot given
explicitly; with none it returns 0 and nothing is written but by ENABLE. The schedule is the model's choice (log entries 1, 7). -/
def Obligations.ReceiveScan : Prop :=
  ∀ (s : State), Safety.Ready s →
    (∀ (n : Slot) ts, n.val ≤ 30 → (s.block.obj n).newdat = true → (∀ m : Slot, m < n → (s.block.obj m).newdat = false) →
      s.block.if2.busy = false →
      s.turns = Safety.enableTurns s.block ++ Safety.hosts 2 ++ Safety.transferTurns .if2 ++ Safety.hosts 9 ++ ts →
      ∃ t u b f, exec (.receive 0) s = .next t ∧ Safety.Returned s b ts (.frame f) t ∧
        exec (.receive (slotNumber n))
          { s with turns := Safety.enableTurns s.block ++ Safety.transferTurns .if2 ++ Safety.hosts 9 ++ ts } = .next u ∧
        u.block = b ∧ (u.ctx s.running).ret = .frame f) ∧
    (∀ ts, (∀ m : Slot, m.val ≤ 30 → (s.block.obj m).newdat = false) →
      s.turns = Safety.enableTurns s.block ++ Safety.hosts 2 ++ ts →
      ∃ t, exec (.receive 0) s = .next t ∧ Safety.Returned s (Safety.enabled s.block) ts (.fail .noNewData) t)

/-- R217: a frame sent through slot 32 and received from that slot, with nothing on the object in between but a step of the engine that
finishes its transmission, is the frame that was sent. The schedule is the model's choice (log entries 1, 7). -/
def Obligations.SendReceive : Prop :=
  ∀ (s t u : State) (f : Frame) (flags : Nat) ts ts', Safety.Ready s → Safety.Ready u → f.id ≤ f.fmt.maxId → f.len ≤ 8 →
    (s.block.obj 31).txrqst = false → s.block.if1.busy = false →
    s.turns = Safety.enableTurns s.block ++ Safety.hosts 10 ++ Safety.transferTurns .if1 ++ Safety.hosts 2 ++ ts →
    exec (.send f flags) s = .next t →
    (∃ pending flagged, u.block.obj 31 = { t.block.obj 31 with txrqst := pending, intpnd := flagged }) →
    u.block.if2.busy = false →
    u.turns = Safety.enableTurns u.block ++ Safety.transferTurns .if2 ++ Safety.hosts 9 ++ ts' →
    ∃ v, exec (.receive 32) u = .next v ∧ (v.ctx u.running).ret = .frame f

/-! ### Lifecycle -/

/-- R233, R234: INIT from any clock and reset state: the timing word of 100 kbit/s is in BT and CLKDIV if there is one, CNTL is 0, the
controller is in NORMAL mode, every object holds its template, and the call returns OK; if the acknowledgment does not come within the
bound it returns Stall and no template is written.
The schedule is the model's choice (log entries 1, 7). -/
def Obligations.Init : Prop :=
  ∀ (s : State) (rx tx : Nat) ts, s.refused = none →
    let w := btCalc s.params.clkHz 100000 0
    let left := fun pending : Bool => { s.block with
      cntl := { test := false, cce := false, dar := false, eie := false, sie := false, ie := false, init := false }
      initPending := pending
      bt := if w = 0#32 then s.block.bt else w.extractLsb' 0 15
      clkdiv := if w = 0#32 then s.block.clkdiv else w.extractLsb' 16 16 }
    (s.block.if1.busy = false →
      s.turns = Safety.hosts 4 ++ (if w = 0#32 then [] else Safety.hosts 5) ++ [.host, .pe .initAck, .host] ++
        Safety.templateTurns ++ ts →
      ∃ t b, exec (.init rx tx) s = .next t ∧
        Safety.Returned { s with clkEn := true, rst := false } b ts .ok t ∧ b.mode = .normal ∧
        (∀ n, b.obj n = Safety.template s.params.templateValid n (s.block.obj n)) ∧ b.if1.busy = false ∧
        { b with if1 := s.block.if1, objs := s.block.objs } = left false) ∧
    (∀ m, s.params.maxSpin = some m →
      s.turns = Safety.hosts 4 ++ (if w = 0#32 then [] else Safety.hosts 5) ++ [.host] ++ Safety.stallTurns m ++ ts →
      ∃ t, exec (.init rx tx) s = .next t ∧
        Safety.Returned { s with clkEn := true, rst := false } (left true) ts .stall t)

/-- R237, R46: SET_MODE: the mode asked for is the mode reached, through the writes the rule gives; GLOBAL_TEST returns 0 and changes
nothing; a mode that ends with ENABLE returns Stall if that stalls, its bits written. The schedule is the model's choice (log entries 1, 7). -/
def Obligations.SetMode : Prop :=
  ∀ (s : State) ts, Safety.Ready s →
    let b := Safety.enabled s.block
    let testMode := fun (m : ReqMode) (silent lback : Bool) (mode : Mode) =>
      s.turns = Safety.hosts 4 ++ Safety.enableTurns s.block ++ ts →
      ∃ t, exec (.setMode m) s = .next t ∧ t.block.mode = mode ∧
        Safety.Returned s { b with cntl := { b.cntl with test := true }, test := { lback := lback, silent := silent } } ts
          (.value 1) t
    (s.turns = Safety.hosts 2 ++ ts →
      ∃ t, exec (.setMode .disabled) s = .next t ∧ t.block.mode = .disabled ∧
        Safety.Returned s { s.block with cntl := { s.block.cntl with init := true }, initPending := false } ts (.value 1) t) ∧
    (s.turns = Safety.hosts 5 ++ Safety.enableTurns s.block ++ ts →
      ∃ t, exec (.setMode .normal) s = .next t ∧ t.block.mode = .normal ∧
        Safety.Returned s { b with cntl := { b.cntl with test := false }, test := { lback := false, silent := false } } ts
          (.value 1) t) ∧
    testMode .silent true false .silent ∧ testMode .loopback false true .loopback ∧
    testMode .silentLoopback true true .silentLoopback ∧
    (s.turns = ts → ∃ t, exec (.setMode .globalTest) s = .next t ∧
      Safety.Returned s s.block ts (.fail .modeUnsupported) t) ∧
    (∀ m, s.block.initReads = true → s.params.maxSpin = some m →
      let u := Safety.released s.block
      let stalls := fun (r : ReqMode) (k : Nat) (test silent lback : Bool) =>
        s.turns = Safety.hosts k ++ Safety.stallTurns m ++ ts →
        ∃ t, exec (.setMode r) s = .next t ∧
          Safety.Returned s { u with cntl := { u.cntl with test := test }, test := { lback := lback, silent := silent } } ts .stall t
      stalls .normal 7 false false false ∧ stalls .silent 6 true true false ∧ stalls .loopback 6 true false true ∧
      stalls .silentLoopback 6 true true true)

/-- R239, R240: MONITOR on sets CNTL.TEST and SILENT and keeps LBACK; off clears both if CNTL.TEST was set, and else only reads. INIT
is written back as it read; where a bus-off step of the engine sets it after off has read CNTL, the write clears it and its
acknowledgment is pending (R239, R313; that this sets aside the words of R240 item 3 is DEDUCED, log entry 28). The schedule is the
model's choice (log entries 1, 7). -/
def Obligations.Monitor : Prop :=
  ∀ (s : State) ts, Safety.Ready s →
    (s.turns = Safety.hosts 4 ++ ts → ∃ t, exec (.monitor true) s = .next t ∧
      Safety.Returned s { s.block with
        cntl := { s.block.cntl with test := true, init := s.block.initReads }, initPending := false
        test := { lback := s.block.test.lback, silent := true } } ts .ok t) ∧
    (s.block.cntl.test = true → s.turns = Safety.hosts 4 ++ ts → ∃ t, exec (.monitor false) s = .next t ∧
      Safety.Returned s { s.block with
        cntl := { s.block.cntl with test := false, init := s.block.initReads }, initPending := false
        test := { lback := s.block.test.lback, silent := false } } ts .ok t) ∧
    (s.block.cntl.test = false → s.turns = .host :: ts → ∃ t, exec (.monitor false) s = .next t ∧
      Safety.Returned s s.block ts .ok t) ∧
    (∀ ec ew ep lec g, s.block.cntl.test = true → s.block.initReads = false →
      s.turns = [.host, .pe (.error ec true ew ep lec g)] ++ Safety.hosts 3 ++ ts → ∃ t, exec (.monitor false) s = .next t ∧
      Safety.Returned s { s.block with
        cntl := { s.block.cntl with test := false, init := false }, initPending := true
        test := { lback := s.block.test.lback, silent := false }
        ec := ec, stat := { s.block.stat with boff := true, ewarn := ew, epass := ep, lec := lec }
        statInt := s.block.statInt || if s.params.peStrict then s.block.cntl.eie else g } ts .ok t)

/-- R241, R300: RESET puts the block into its reset state, releases reset, installs the templates, and returns OK; the controller is
DISABLED and the marks, the registration, host_ie and the clock are as they were. The schedule is the model's choice (log entries 1, 7). -/
def Obligations.Reset : Prop :=
  ∀ (s : State) ts, s.clkEn = true → s.refused = none → s.turns = Safety.hosts 2 ++ Safety.templateTurns ++ ts →
    ∃ t b, exec .reset s = .next t ∧ Safety.Returned { s with rst := false } b ts .ok t ∧
      b.cntl.init = true ∧ b.initPending = false ∧ b.statInt = false ∧ b.if1.busy = false ∧ b.if2.busy = false ∧
      b.mode = .disabled ∧ ∀ n, ∃ o, b.obj n = Safety.template s.params.templateValid n o

/-- R242, R277, R300: TEARDOWN unregisters, gates the clock off and asserts reset: the block is in its reset state, the registration is
empty, and no bus transaction is admitted any more. The schedule, the
result OK and the fault are the model's choice (log entries 1, 5, 7, 17). -/
def Obligations.Teardown : Prop :=
  ∀ (s : State) ts, Safety.Ready s → s.turns = Safety.hosts 6 ++ ts →
    ∃ t b, exec .teardown s = .next t ∧
      Safety.Returned { s with
        reg := { cb := none, token := none, rxEn := false, txEn := false }, hostIe := false, clkEn := false, rst := true }
        b ts .ok t ∧
      b.cntl.init = true ∧ b.initPending = false ∧ b.statInt = false ∧ b.if1.busy = false ∧ b.if2.busy = false ∧
      exec .rdCntl t = .fault .notAdmitted

/-- R276, R277, R278: the registration calls. The schedule and the result of IRQ_ENABLE_CLASS are the model's
choice (log entries 1, 7, 17). -/
def Obligations.Registration : Prop :=
  ∀ (s : State) ts,
    (∀ cb token, Safety.Ready s → s.turns = Safety.hosts 4 ++ ts → ∃ t, exec (.irqRegister cb token) s = .next t ∧
      Safety.Returned { s with
        reg := { cb := some cb, token := some token, rxEn := false, txEn := false }, hostIe := true }
        { s.block with
          cntl := { s.block.cntl with eie := true, sie := true, ie := true, init := s.block.initReads }, initPending := false }
        ts .ok t) ∧
    (Safety.Ready s → s.turns = Safety.hosts 4 ++ ts → ∃ t, exec .irqUnregister s = .next t ∧
      Safety.Returned { s with reg := { cb := none, token := none, rxEn := false, txEn := false }, hostIe := false }
        { s.block with
          cntl := { s.block.cntl with eie := false, sie := false, ie := false, init := s.block.initReads }
          initPending := false } ts .ok t) ∧
    (∀ on, exec (.irqEnableClass .rx on) s =
      .next (({ s with reg := { s.reg with rxEn := on } } : State).setCtx s.running { s.ctx s.running with ret := .ok })) ∧
    (∀ on, exec (.irqEnableClass .tx on) s =
      .next (({ s with reg := { s.reg with txEn := on } } : State).setCtx s.running { s.ctx s.running with ret := .ok }))

/-! ### Interrupts -/

/-- R280, R281, R272, R282 case 6: a dispatch that serves a status change: with a callback registered that issues nothing, it notifies each
set bit in the fixed order with the STAT value read; with or without one, it clears RXOK and TXOK where they were set, clears stat_int,
and returns; with none it delivers nothing.
The schedule and the record of
callbacks are the model's choice (log entries 1, 7, 8). -/
def Obligations.DispatchStatus : Prop :=
  ∀ (s : State) ts, Safety.Ready s → s.mayDispatch = true → s.block.statInt = true →
    let b := { s.block with stat := { s.block.stat with rxok := false, txok := false }, statInt := false }
    (∀ f, s.reg.cb = some f → s.callbackPrograms = [] →
      s.turns = Safety.hosts 2 ++ Safety.noticeTurns 2 s.block.stat ++ ts →
      ∃ (t : State) (a : Word), exec .dispatch s = .next t ∧
        Safety.Dispatched s b ts
          ((Safety.notices s.block.stat).map fun e => { cb := f, token := s.reg.token, event := e, arg := a }) t ∧
        a.getLsbD 7 = s.block.stat.boff ∧ a.getLsbD 6 = s.block.stat.ewarn ∧ a.getLsbD 5 = s.block.stat.epass ∧
        a.getLsbD 4 = s.block.stat.rxok ∧ a.getLsbD 3 = s.block.stat.txok ∧ a.extractLsb' 0 3 = s.block.stat.lec) ∧
    (s.reg.cb = none → s.turns = Safety.hosts 2 ++ Safety.noticeTurns 1 s.block.stat ++ ts →
      ∃ t, exec .dispatch s = .next t ∧ Safety.Dispatched s b ts [] t)

/-- R280, R282: a dispatch that serves the least object with INTPND: it clears INTPND and NEWDAT of that slot, calls the callback with
the slot if one is registered and its class is enabled, the callback issuing nothing (callbackPrograms = []), and drops the event silently
if not. The schedule, and the record of callbacks with that premise, are the model's choice (log entries 1, 7, 8). -/
def Obligations.DispatchObject : Prop :=
  ∀ (s : State) (n : Slot) ts, Safety.Ready s → s.mayDispatch = true → s.block.statInt = false → (s.block.obj n).intpnd = true →
    (∀ m : Slot, m < n → (s.block.obj m).intpnd = false) → s.block.if2.busy = false →
    let enabled := if n.val = 31 then s.reg.txEn else s.reg.rxEn
    let e := if n.val = 31 then Event.tx else Event.rx
    (∀ f, s.reg.cb = some f → enabled = true → s.callbackPrograms = [] →
      s.turns = .host :: Safety.transferTurns .if2 ++ Safety.hosts 2 ++ ts →
      ∃ t b, exec .dispatch s = .next t ∧
        Safety.Dispatched s b ts
          [{ cb := f, token := s.reg.token, event := e, arg := BitVec.ofNat 16 (slotNumber n) }] t ∧
        b.obj n = { s.block.obj n with intpnd := false, newdat := false } ∧ (∀ m, m ≠ n → b.obj m = s.block.obj m) ∧
        { b with if2 := s.block.if2, objs := s.block.objs } = s.block) ∧
    (s.reg.cb = none ∨ enabled = false → s.turns = .host :: Safety.transferTurns .if2 ++ Safety.hosts 1 ++ ts →
      ∃ t b, exec .dispatch s = .next t ∧ Safety.Dispatched s b ts [] t ∧
        b.obj n = { s.block.obj n with intpnd := false, newdat := false } ∧ (∀ m, m ≠ n → b.obj m = s.block.obj m) ∧
        { b with if2 := s.block.if2, objs := s.block.objs } = s.block)

/-- R10, R270, R271, R273, R274: a dispatch may start exactly while the line is asserted, the host's enable is set and none runs; its
entry changes no block state and leaves HOST_MAIN where it is; and while it runs no step changes HOST_MAIN's context.
That exec answers a fault where no
dispatch may start is the model's choice (log entry 5). -/
def Obligations.InterruptEntry : Prop :=
  (∀ s : State, s.mayDispatch = true ↔
    s.block.cntl.ie = true ∧ (s.block.statInt = true ∨ ∃ n, (s.block.obj n).intpnd = true) ∧ s.hostIe = true ∧ s.irq.calls = []) ∧
  (∀ s : State, s.mayDispatch = false → exec .dispatch s = .fault .dispatchNotEnabled) ∧
  (∀ s : State, s.mayDispatch = true → (s.takeInterrupt dispatchPlan).running = .irq ∧
    ({ s.takeInterrupt dispatchPlan with irq := s.irq } : State) = s) ∧
  (∀ s t : State, s.irq.calls ≠ [] → step s = .next t → t.main = s.main ∧ t.program = s.program)

/-! ### The protocol engine -/

/-- R266, R197: each step of the engine, when it is enabled, and that it is not enabled else, the acceptance predicate written out. The
strict gates and the predicate are the spec's general knowledge (D48); that a wider identifier is stored in the bits the object has is the
model's reading (log entry 9), the turn its choice (log entry 1). -/
def Obligations.PeSteps : Prop :=
  ∀ (s : State) ts, s.refused = none → s.clkEn = true → s.rst = false →
    let strict := s.params.peStrict
    let onBus := (s.block.cntl.init || s.block.initPending) = false
    let steps := fun e b => step { s with turns := .pe e :: ts } = .next { s with turns := ts, block := b }
    let accepts := fun (o : Obj) (f : Frame) =>
      o.msgval = true ∧ o.dir = false ∧
      (∀ i, i < 29 → (f.fmt = .std → 18 ≤ i) → (o.umask = true → o.msk.getLsbD i = true) →
        o.id.getLsbD i = if f.fmt = .ext then f.id.testBit i else f.id.testBit (i - 18)) ∧
      ((o.umask = true ∧ o.mxtd = false) ∨ o.xtd = decide (f.fmt = .ext))
    (s.block.initPending = true → steps .initAck { s.block with initPending := false }) ∧
    (s.block.initPending = false → steps .initAck s.block) ∧
    (∀ n lec gTx gS, let o := s.block.obj n
      (onBus ∧ o.msgval = true ∧ o.txrqst = true →
        steps (.txDone n lec gTx gS) { s.block.setObj n
          { o with txrqst := false, intpnd := o.intpnd || if strict then o.txie else gTx } with
          stat := { s.block.stat with txok := true, lec := lec }
          statInt := s.block.statInt || if strict then s.block.cntl.sie else gS }) ∧
      (¬ (onBus ∧ o.msgval = true ∧ o.txrqst = true) → steps (.txDone n lec gTx gS) s.block)) ∧
    (∀ n f lec low gRx gS, let o := s.block.obj n
      let may := onBus ∧ o.msgval = true ∧ o.dir = false ∧ f.len ≤ 15 ∧
        (strict = true → accepts o f ∧ (∀ m : Slot, m < n → ¬ accepts (s.block.obj m) f) ∧ f.type = .data)
      (may → ∃ o', steps (.rxStore n f lec low gRx gS) { s.block.setObj n o' with
          stat := { s.block.stat with rxok := true, lec := lec }
          statInt := s.block.statInt || if strict then s.block.cntl.sie else gS } ∧
        o'.id.toNat = (if f.fmt = .ext then f.id % 536870912 else f.id % 2048 * 262144 + low.toNat) ∧ o'.dlc.toNat = f.len ∧
        o' = { o with
          id := o'.id, dlc := o'.dlc, xtd := decide (f.fmt = .ext)
          dir := if strict then o.dir else decide (f.type = .remote)
          data := f.data, msglst := o.msglst || o.newdat, newdat := true
          intpnd := o.intpnd || if strict then o.rxie else gRx }) ∧
      (¬ may → steps (.rxStore n f lec low gRx gS) s.block)) ∧
    (∀ n gS, let o := s.block.obj n
      (onBus ∧ o.msgval = true ∧ o.dir = true ∧ o.rmten = true →
        steps (.remoteReq n gS) { s.block.setObj n { o with txrqst := true } with
          statInt := s.block.statInt || if strict then s.block.cntl.sie else gS }) ∧
      (¬ (onBus ∧ o.msgval = true ∧ o.dir = true ∧ o.rmten = true) → steps (.remoteReq n gS) s.block)) ∧
    (∀ ec boff ewarn epass lec gE,
      steps (.error ec boff ewarn epass lec gE) { s.block with
        ec := ec, stat := { s.block.stat with boff := boff, ewarn := ewarn, epass := epass, lec := lec }
        cntl := { s.block.cntl with init := s.block.cntl.init || boff }
        initPending := s.block.initPending && !boff
        statInt := s.block.statInt || if strict then s.block.cntl.eie else gE })

/-- R267: what no step of the engine changes, from any state. -/
def Obligations.PeNever : Prop :=
  ∀ (s t : State) e ts, s.turns = .pe e :: ts → step s = .next t →
    t.block.if1 = s.block.if1 ∧ t.block.if2 = s.block.if2 ∧ t.block.bt = s.block.bt ∧ t.block.clkdiv = s.block.clkdiv ∧
    t.block.test = s.block.test ∧
    ({ t.block.cntl with init := s.block.cntl.init } : Cntl) = s.block.cntl ∧
    (s.block.cntl.init = true → t.block.cntl.init = true) ∧ (t.block.cntl.init ≠ s.block.cntl.init → t.block.stat.boff = true) ∧
    (∀ n, ∀ o o' : Obj, o = s.block.obj n → o' = t.block.obj n →
      o'.msgval = o.msgval ∧ o'.mxtd = o.mxtd ∧ o'.mdir = o.mdir ∧ o'.msk = o.msk ∧ o'.umask = o.umask ∧ o'.eob = o.eob ∧
      o'.txie = o.txie ∧ o'.rxie = o.rxie ∧ o'.rmten = o.rmten) ∧
    ({ t with block := s.block, turns := s.turns } : State) = s

/-! ### The whole machine -/

/-- The invariant is kept by every step, from every state that has it. That reserved bits of MSK2 and MCTRL hold nothing is the model's
reading (R167 puts a draw in MSK2 bit 13, R300 makes MSK2 one; log entry 10), and that the marks are a list without repeats its choice
(log entry 22). -/
def Obligations.InvKept : Prop := ∀ s t : State, Safety.Inv s → step s = .next t → Safety.Inv t

/-- The invariant holds at reset, and reset is the power-up state: the clock off, reset asserted, the registration empty, the interrupt
disabled and the marks empty (R301), INIT set, no transfer in flight and the two latches 0 (R300), the mode DISABLED (R302, which the
spec derives). Nothing is said of the fields that are draws (log entry 2); the invariant's clauses on reserved bits and on the marks are
the model's (log entries 10, 22). -/
def Obligations.ResetState : Prop :=
  Safety.Inv State.reset ∧ State.reset.clkEn = false ∧ State.reset.rst = true ∧ State.reset.block.cntl.init = true ∧
  State.reset.block.if1.busy = false ∧ State.reset.block.if2.busy = false ∧ State.reset.block.statInt = false ∧
  State.reset.block.initPending = false ∧
  State.reset.reg = { cb := none, token := none, rxEn := false, txEn := false } ∧ State.reset.hostIe = false ∧
  State.reset.faults = [] ∧ State.reset.refused = none ∧ State.reset.block.mode = .disabled

/-- R44, R262: no step removes a recorded fault, and a step adds them only at the end; the parameters never change. That the marks
are a list and the parameters a field is the model's choice (log entries 4, 22). -/
def Obligations.FaultsKept : Prop :=
  ∀ s t : State, step s = .next t → s.faults <+: t.faults ∧ t.params = s.params

/-- R155, R264, R310: while a transfer is in flight on an interface no agent's step changes that interface, but the transfer's own
completion and a reset, which abandons it; nor does any bus transaction, whichever context runs it, nor an operation that HOST_MAIN issues
itself, but for a reset. (A procedure that HOST_MAIN calls moves by the agents' steps.) The program is the model's choice (log entries 6,
18). -/
def Obligations.BusyLock : Prop :=
  ∀ (s : State) (k : IfId), (s.block.iface k).busy = true →
    (∀ t : Turn, t ≠ .xfer k →
      (s.agentStep t).block.iface k = s.block.iface k ∨
        (t = .host ∧ (s.agentStep t).rst = true ∧ ((s.agentStep t).block.iface k).busy = false)) ∧
    (∀ i t, (busOp i).isSome = true → exec i s = .next t → t.block.iface k = s.block.iface k) ∧
    (∀ op ts t, Safety.Issues s op ts → Safety.NoProcedure op → step s = .next t →
      t.block.iface k = s.block.iface k ∨ (op = .envReset true ∧ t.rst = true ∧ (t.block.iface k).busy = false))

/-- R48, R162: the validity flag of an object changes only through the arbitration part of a write transfer that addresses it, or a
reset: so for every agent's step, for every bus transaction, whichever context runs it, and for an operation that HOST_MAIN issues itself.
(A procedure that HOST_MAIN calls moves by the agents' steps; a completion of a transfer is XFER_k's step for the latched command, and as an
entry of a program has no effect: log entries 6, 18, 19.) -/
def Obligations.ValidityFlag : Prop :=
  ∀ (s : State) (n : Slot),
    (∀ t : Turn, ((s.agentStep t).block.obj n).msgval ≠ (s.block.obj n).msgval →
      (∃ k, t = .xfer k ∧ s.xferEnabled k = true ∧ (s.block.iface k).slot = n ∧ (s.block.iface k).cmd.getLsbD 7 = true ∧
        (s.block.iface k).cmd.getLsbD 5 = true) ∨
      (t = .host ∧ (s.agentStep t).rst = true)) ∧
    (∀ i t, (busOp i).isSome = true → exec i s = .next t → (t.block.obj n).msgval = (s.block.obj n).msgval) ∧
    (∀ op ts t, Safety.Issues s op ts → Safety.NoProcedure op → step s = .next t →
      (t.block.obj n).msgval = (s.block.obj n).msgval ∨ (op = .envReset true ∧ t.rst = true))
end

