-- ==== Sys2Proof/Laws/Bits.lean ====
section
/-! SUPPORT. Bits of the operand forms: which bit of a word each field, flag and bitmap gives. -/

namespace Sys2Proof.Machine

/-- Bit i of a placed field. -/
theorem getLsbD_field {w n : Nat} (lo : Nat) (x : BitVec n) (i : Nat) :
    (field lo x : BitVec w).getLsbD i = (decide (i < w) && decide (lo ≤ i) && x.getLsbD (i - lo)) := by
  simp only [field, BitVec.getLsbD_shiftLeft, BitVec.getLsbD_setWidth]
  by_cases h : i < w
  · by_cases g : lo ≤ i
    · simp [h, g, show i - lo < w by omega, show ¬ i < lo by omega]
    · simp [h, g, show i < lo by omega]
  · simp [h]

/-- Bit i of a placed flag. -/
theorem getLsbD_flag {w : Nat} (lo : Nat) (b : Bool) (i : Nat) :
    (flag lo b : BitVec w).getLsbD i = (decide (i < w) && decide (i = lo) && b) := by
  rw [flag, getLsbD_field]
  by_cases h : i < w
  · rcases Nat.lt_trichotomy i lo with g | g | g
    · simp [h, show ¬ lo ≤ i by omega, show i ≠ lo by omega]
    · simp [g]
    · simp [h, show lo ≤ i by omega, show i ≠ lo by omega, show i - lo ≠ 0 by omega, BitVec.getLsbD_ofBool]
  · simp [h]

theorem getElem_field {w n : Nat} (lo : Nat) (x : BitVec n) (i : Nat) (h : i < w) :
    (field lo x : BitVec w)[i] = (decide (lo ≤ i) && x.getLsbD (i - lo)) := by
  rw [← BitVec.getLsbD_eq_getElem, getLsbD_field]; simp [h]

theorem getElem_flag {w : Nat} (lo : Nat) (b : Bool) (i : Nat) (h : i < w) :
    (flag lo b : BitVec w)[i] = (decide (i = lo) && b) := by
  rw [← BitVec.getLsbD_eq_getElem, getLsbD_flag]; simp [h]

/-- Bit i of the word of given bits. -/
theorem getLsbD_wordOfBits (f : Nat → Bool) (n i : Nat) : (wordOfBits f n).getLsbD i = (decide (i < n) && f i) := by
  induction n with
  | zero => simp [wordOfBits]
  | succ n ih =>
    rw [wordOfBits, BitVec.getLsbD_cons, ih]
    by_cases h : i = n
    · simp [h]
    · simp only [h, if_false]
      by_cases g : i < n <;> simp [g] <;> omega

/-- Bit i of a bitmap register: the object at place base + i (R41). -/
theorem getLsbD_bitmap (b : Block) (h : Half) (f : Obj → Bool) (i : Nat) (hi : i < 16) (p : Half.base h + i < 32) :
    (b.bitmap h f).getLsbD i = f (b.obj ⟨Half.base h + i, p⟩) := by
  rw [Block.bitmap, getLsbD_wordOfBits]; simp [hi, p]

/-- A word of 16 bits is known by its bits. -/
theorem word_ext {v w : Word} (h : ∀ i, i < 16 → v.getLsbD i = w.getLsbD i) : v = w := by
  apply BitVec.eq_of_getLsbD_eq; exact h

/-- Two adjoining fields as a number. -/
theorem toNat_fields {w m n : Nat} (a : BitVec n) (b : BitVec m) (h : m + n ≤ w) :
    (field m a ||| field 0 b : BitVec w).toNat = a.toNat * 2 ^ m + b.toNat := by
  have ha := a.isLt
  have hb := b.isLt
  have hm : 2 ^ m ≤ 2 ^ w := Nat.pow_le_pow_right (by omega) (by omega)
  have hn : 2 ^ n ≤ 2 ^ w := Nat.pow_le_pow_right (by omega) (by omega)
  have hab : a.toNat * 2 ^ m < 2 ^ w := by
    calc a.toNat * 2 ^ m < 2 ^ n * 2 ^ m := Nat.mul_lt_mul_of_pos_right ha (by positivity)
      _ = 2 ^ (m + n) := by rw [← Nat.pow_add, Nat.add_comm]
      _ ≤ 2 ^ w := Nat.pow_le_pow_right (by omega) h
  simp only [field, BitVec.toNat_or, BitVec.toNat_shiftLeft, BitVec.toNat_setWidth, Nat.shiftLeft_zero, Nat.mod_mod]
  rw [Nat.mod_eq_of_lt (show a.toNat < 2 ^ w by omega), Nat.mod_eq_of_lt (show b.toNat < 2 ^ w by omega), Nat.shiftLeft_eq,
    Nat.mod_eq_of_lt hab, ← Nat.shiftLeft_eq, ← Nat.shiftLeft_add_eq_or_of_lt hb]

/-- An identifier or mask from its two words, as a number (R74). -/
theorem toNat_join29 (w2 w1 : Word) : (join29 w2 w1).toNat = (w2.extractLsb' 0 13).toNat * 65536 + w1.toNat :=
  toNat_fields _ _ (by decide)

/-- A byte pair as a number (R72). -/
theorem toNat_bytePair (l h : Byte) : (bytePair l h).toNat = l.toNat + 256 * h.toNat := by
  rw [bytePair, toNat_fields _ _ (by decide)]; omega

/-- The bytes of a byte pair. -/
theorem lowerByte_bytePair (l h : Byte) : lowerByte (bytePair l h) = l := by
  apply BitVec.eq_of_toNat_eq
  have := l.isLt
  simp only [lowerByte, BitVec.extractLsb'_toNat, toNat_bytePair, Nat.shiftRight_zero]
  omega

theorem higherByte_bytePair (l h : Byte) : higherByte (bytePair l h) = h := by
  apply BitVec.eq_of_toNat_eq
  have := l.isLt
  have := h.isLt
  simp only [higherByte, BitVec.extractLsb'_toNat, toNat_bytePair, Nat.shiftRight_eq_div_pow]
  omega

/-- Eight bytes are the vector of them. -/
theorem vector8_eta (v : Vector Byte 8) : #v[v[0], v[1], v[2], v[3], v[4], v[5], v[6], v[7]] = v := by
  apply Vector.ext
  intro i hi
  interval_cases i <;> rfl

end Sys2Proof.Machine
end

