-- ==== Sys2Proof/Laws/State.lean ====
section
/-! SUPPORT. The small lemmas of the state's named updates: one per field, so that no proof unfolds a record update. -/

namespace Sys2Proof.Machine
/-! ### State.withBlock -/
@[simp] theorem State.withBlock_block (s : State) (b : Block) : (s.withBlock b).block = b := rfl
@[simp] theorem State.withBlock_clkEn (s : State) (b : Block) : (s.withBlock b).clkEn = s.clkEn := rfl
@[simp] theorem State.withBlock_rst (s : State) (b : Block) : (s.withBlock b).rst = s.rst := rfl
@[simp] theorem State.withBlock_faults (s : State) (b : Block) : (s.withBlock b).faults = s.faults := rfl
@[simp] theorem State.withBlock_refused (s : State) (b : Block) : (s.withBlock b).refused = s.refused := rfl
@[simp] theorem State.withBlock_reg (s : State) (b : Block) : (s.withBlock b).reg = s.reg := rfl
@[simp] theorem State.withBlock_hostIe (s : State) (b : Block) : (s.withBlock b).hostIe = s.hostIe := rfl
@[simp] theorem State.withBlock_main (s : State) (b : Block) : (s.withBlock b).main = s.main := rfl
@[simp] theorem State.withBlock_irq (s : State) (b : Block) : (s.withBlock b).irq = s.irq := rfl
@[simp] theorem State.withBlock_delivered (s : State) (b : Block) : (s.withBlock b).delivered = s.delivered := rfl
@[simp] theorem State.withBlock_program (s : State) (b : Block) : (s.withBlock b).program = s.program := rfl
@[simp] theorem State.withBlock_callbackPrograms (s : State) (b : Block) : (s.withBlock b).callbackPrograms = s.callbackPrograms := rfl
@[simp] theorem State.withBlock_turns (s : State) (b : Block) : (s.withBlock b).turns = s.turns := rfl
@[simp] theorem State.withBlock_fresh (s : State) (b : Block) : (s.withBlock b).fresh = s.fresh := rfl
@[simp] theorem State.withBlock_params (s : State) (b : Block) : (s.withBlock b).params = s.params := rfl

/-! ### State.spend -/
@[simp] theorem State.spend_block (s : State) (k : Nat) : (s.spend k).block = s.block := rfl
@[simp] theorem State.spend_clkEn (s : State) (k : Nat) : (s.spend k).clkEn = s.clkEn := rfl
@[simp] theorem State.spend_rst (s : State) (k : Nat) : (s.spend k).rst = s.rst := rfl
@[simp] theorem State.spend_faults (s : State) (k : Nat) : (s.spend k).faults = s.faults := rfl
@[simp] theorem State.spend_refused (s : State) (k : Nat) : (s.spend k).refused = s.refused := rfl
@[simp] theorem State.spend_reg (s : State) (k : Nat) : (s.spend k).reg = s.reg := rfl
@[simp] theorem State.spend_hostIe (s : State) (k : Nat) : (s.spend k).hostIe = s.hostIe := rfl
@[simp] theorem State.spend_main (s : State) (k : Nat) : (s.spend k).main = s.main := rfl
@[simp] theorem State.spend_irq (s : State) (k : Nat) : (s.spend k).irq = s.irq := rfl
@[simp] theorem State.spend_delivered (s : State) (k : Nat) : (s.spend k).delivered = s.delivered := rfl
@[simp] theorem State.spend_program (s : State) (k : Nat) : (s.spend k).program = s.program := rfl
@[simp] theorem State.spend_callbackPrograms (s : State) (k : Nat) : (s.spend k).callbackPrograms = s.callbackPrograms := rfl
@[simp] theorem State.spend_turns (s : State) (k : Nat) : (s.spend k).turns = s.turns := rfl
@[simp] theorem State.spend_fresh (s : State) (k : Nat) : (s.spend k).fresh = s.fresh + k := rfl
@[simp] theorem State.spend_params (s : State) (k : Nat) : (s.spend k).params = s.params := rfl

/-! ### State.withTurns -/
@[simp] theorem State.withTurns_block (s : State) (ts : List Turn) : (s.withTurns ts).block = s.block := rfl
@[simp] theorem State.withTurns_clkEn (s : State) (ts : List Turn) : (s.withTurns ts).clkEn = s.clkEn := rfl
@[simp] theorem State.withTurns_rst (s : State) (ts : List Turn) : (s.withTurns ts).rst = s.rst := rfl
@[simp] theorem State.withTurns_faults (s : State) (ts : List Turn) : (s.withTurns ts).faults = s.faults := rfl
@[simp] theorem State.withTurns_refused (s : State) (ts : List Turn) : (s.withTurns ts).refused = s.refused := rfl
@[simp] theorem State.withTurns_reg (s : State) (ts : List Turn) : (s.withTurns ts).reg = s.reg := rfl
@[simp] theorem State.withTurns_hostIe (s : State) (ts : List Turn) : (s.withTurns ts).hostIe = s.hostIe := rfl
@[simp] theorem State.withTurns_main (s : State) (ts : List Turn) : (s.withTurns ts).main = s.main := rfl
@[simp] theorem State.withTurns_irq (s : State) (ts : List Turn) : (s.withTurns ts).irq = s.irq := rfl
@[simp] theorem State.withTurns_delivered (s : State) (ts : List Turn) : (s.withTurns ts).delivered = s.delivered := rfl
@[simp] theorem State.withTurns_program (s : State) (ts : List Turn) : (s.withTurns ts).program = s.program := rfl
@[simp] theorem State.withTurns_callbackPrograms (s : State) (ts : List Turn) : (s.withTurns ts).callbackPrograms = s.callbackPrograms := rfl
@[simp] theorem State.withTurns_turns (s : State) (ts : List Turn) : (s.withTurns ts).turns = ts := rfl
@[simp] theorem State.withTurns_fresh (s : State) (ts : List Turn) : (s.withTurns ts).fresh = s.fresh := rfl
@[simp] theorem State.withTurns_params (s : State) (ts : List Turn) : (s.withTurns ts).params = s.params := rfl

/-! ### State.refuse -/
@[simp] theorem State.refuse_block (s : State) (m : RefusalMark) : (s.refuse m).block = s.block := rfl
@[simp] theorem State.refuse_clkEn (s : State) (m : RefusalMark) : (s.refuse m).clkEn = s.clkEn := rfl
@[simp] theorem State.refuse_rst (s : State) (m : RefusalMark) : (s.refuse m).rst = s.rst := rfl
@[simp] theorem State.refuse_faults (s : State) (m : RefusalMark) : (s.refuse m).faults = s.faults := rfl
@[simp] theorem State.refuse_refused (s : State) (m : RefusalMark) : (s.refuse m).refused = some m := rfl
@[simp] theorem State.refuse_reg (s : State) (m : RefusalMark) : (s.refuse m).reg = s.reg := rfl
@[simp] theorem State.refuse_hostIe (s : State) (m : RefusalMark) : (s.refuse m).hostIe = s.hostIe := rfl
@[simp] theorem State.refuse_main (s : State) (m : RefusalMark) : (s.refuse m).main = s.main := rfl
@[simp] theorem State.refuse_irq (s : State) (m : RefusalMark) : (s.refuse m).irq = s.irq := rfl
@[simp] theorem State.refuse_delivered (s : State) (m : RefusalMark) : (s.refuse m).delivered = s.delivered := rfl
@[simp] theorem State.refuse_program (s : State) (m : RefusalMark) : (s.refuse m).program = s.program := rfl
@[simp] theorem State.refuse_callbackPrograms (s : State) (m : RefusalMark) : (s.refuse m).callbackPrograms = s.callbackPrograms := rfl
@[simp] theorem State.refuse_turns (s : State) (m : RefusalMark) : (s.refuse m).turns = s.turns := rfl
@[simp] theorem State.refuse_fresh (s : State) (m : RefusalMark) : (s.refuse m).fresh = s.fresh := rfl
@[simp] theorem State.refuse_params (s : State) (m : RefusalMark) : (s.refuse m).params = s.params := rfl

/-! ### State.envClock -/
@[simp] theorem State.envClock_block (s : State) (b : Bool) : (s.envClock b).block = s.block := rfl
@[simp] theorem State.envClock_clkEn (s : State) (b : Bool) : (s.envClock b).clkEn = b := rfl
@[simp] theorem State.envClock_rst (s : State) (b : Bool) : (s.envClock b).rst = s.rst := rfl
@[simp] theorem State.envClock_faults (s : State) (b : Bool) : (s.envClock b).faults = s.faults := rfl
@[simp] theorem State.envClock_refused (s : State) (b : Bool) : (s.envClock b).refused = s.refused := rfl
@[simp] theorem State.envClock_reg (s : State) (b : Bool) : (s.envClock b).reg = s.reg := rfl
@[simp] theorem State.envClock_hostIe (s : State) (b : Bool) : (s.envClock b).hostIe = s.hostIe := rfl
@[simp] theorem State.envClock_main (s : State) (b : Bool) : (s.envClock b).main = s.main := rfl
@[simp] theorem State.envClock_irq (s : State) (b : Bool) : (s.envClock b).irq = s.irq := rfl
@[simp] theorem State.envClock_delivered (s : State) (b : Bool) : (s.envClock b).delivered = s.delivered := rfl
@[simp] theorem State.envClock_program (s : State) (b : Bool) : (s.envClock b).program = s.program := rfl
@[simp] theorem State.envClock_callbackPrograms (s : State) (b : Bool) : (s.envClock b).callbackPrograms = s.callbackPrograms := rfl
@[simp] theorem State.envClock_turns (s : State) (b : Bool) : (s.envClock b).turns = s.turns := rfl
@[simp] theorem State.envClock_fresh (s : State) (b : Bool) : (s.envClock b).fresh = s.fresh := rfl
@[simp] theorem State.envClock_params (s : State) (b : Bool) : (s.envClock b).params = s.params := rfl

/-! ### State.setCtx -/
@[simp] theorem State.setCtx_block (s : State) (c : CtxId) (x : HostCtx) : (s.setCtx c x).block = s.block := by cases c <;> rfl
@[simp] theorem State.setCtx_clkEn (s : State) (c : CtxId) (x : HostCtx) : (s.setCtx c x).clkEn = s.clkEn := by cases c <;> rfl
@[simp] theorem State.setCtx_rst (s : State) (c : CtxId) (x : HostCtx) : (s.setCtx c x).rst = s.rst := by cases c <;> rfl
@[simp] theorem State.setCtx_faults (s : State) (c : CtxId) (x : HostCtx) : (s.setCtx c x).faults = s.faults := by cases c <;> rfl
@[simp] theorem State.setCtx_refused (s : State) (c : CtxId) (x : HostCtx) : (s.setCtx c x).refused = s.refused := by cases c <;> rfl
@[simp] theorem State.setCtx_reg (s : State) (c : CtxId) (x : HostCtx) : (s.setCtx c x).reg = s.reg := by cases c <;> rfl
@[simp] theorem State.setCtx_hostIe (s : State) (c : CtxId) (x : HostCtx) : (s.setCtx c x).hostIe = s.hostIe := by cases c <;> rfl
@[simp] theorem State.setCtx_main (s : State) (c : CtxId) (x : HostCtx) : (s.setCtx c x).main = if c = .main then x else s.main := by cases c <;> rfl
@[simp] theorem State.setCtx_irq (s : State) (c : CtxId) (x : HostCtx) : (s.setCtx c x).irq = if c = .irq then x else s.irq := by cases c <;> rfl
@[simp] theorem State.setCtx_delivered (s : State) (c : CtxId) (x : HostCtx) : (s.setCtx c x).delivered = s.delivered := by cases c <;> rfl
@[simp] theorem State.setCtx_program (s : State) (c : CtxId) (x : HostCtx) : (s.setCtx c x).program = s.program := by cases c <;> rfl
@[simp] theorem State.setCtx_callbackPrograms (s : State) (c : CtxId) (x : HostCtx) : (s.setCtx c x).callbackPrograms = s.callbackPrograms := by cases c <;> rfl
@[simp] theorem State.setCtx_turns (s : State) (c : CtxId) (x : HostCtx) : (s.setCtx c x).turns = s.turns := by cases c <;> rfl
@[simp] theorem State.setCtx_fresh (s : State) (c : CtxId) (x : HostCtx) : (s.setCtx c x).fresh = s.fresh := by cases c <;> rfl
@[simp] theorem State.setCtx_params (s : State) (c : CtxId) (x : HostCtx) : (s.setCtx c x).params = s.params := by cases c <;> rfl

/-! ### State.returnRead -/
@[simp] theorem State.returnRead_block (s : State) (w : BitVec 32) : (s.returnRead w).block = s.block := by simp [State.returnRead]
@[simp] theorem State.returnRead_clkEn (s : State) (w : BitVec 32) : (s.returnRead w).clkEn = s.clkEn := by simp [State.returnRead]
@[simp] theorem State.returnRead_rst (s : State) (w : BitVec 32) : (s.returnRead w).rst = s.rst := by simp [State.returnRead]
@[simp] theorem State.returnRead_faults (s : State) (w : BitVec 32) : (s.returnRead w).faults = s.faults := by simp [State.returnRead]
@[simp] theorem State.returnRead_refused (s : State) (w : BitVec 32) : (s.returnRead w).refused = s.refused := by simp [State.returnRead]
@[simp] theorem State.returnRead_reg (s : State) (w : BitVec 32) : (s.returnRead w).reg = s.reg := by simp [State.returnRead]
@[simp] theorem State.returnRead_hostIe (s : State) (w : BitVec 32) : (s.returnRead w).hostIe = s.hostIe := by simp [State.returnRead]
@[simp] theorem State.returnRead_delivered (s : State) (w : BitVec 32) : (s.returnRead w).delivered = s.delivered := by simp [State.returnRead]
@[simp] theorem State.returnRead_program (s : State) (w : BitVec 32) : (s.returnRead w).program = s.program := by simp [State.returnRead]
@[simp] theorem State.returnRead_callbackPrograms (s : State) (w : BitVec 32) : (s.returnRead w).callbackPrograms = s.callbackPrograms := by simp [State.returnRead]
@[simp] theorem State.returnRead_turns (s : State) (w : BitVec 32) : (s.returnRead w).turns = s.turns := by simp [State.returnRead]
@[simp] theorem State.returnRead_fresh (s : State) (w : BitVec 32) : (s.returnRead w).fresh = s.fresh := by simp [State.returnRead]
@[simp] theorem State.returnRead_params (s : State) (w : BitVec 32) : (s.returnRead w).params = s.params := by simp [State.returnRead]

/-! ### State.returnCall -/
@[simp] theorem State.returnCall_block (s : State) (r : Ret) : (s.returnCall r).block = s.block := by simp [State.returnCall]
@[simp] theorem State.returnCall_clkEn (s : State) (r : Ret) : (s.returnCall r).clkEn = s.clkEn := by simp [State.returnCall]
@[simp] theorem State.returnCall_rst (s : State) (r : Ret) : (s.returnCall r).rst = s.rst := by simp [State.returnCall]
@[simp] theorem State.returnCall_faults (s : State) (r : Ret) : (s.returnCall r).faults = s.faults := by simp [State.returnCall]
@[simp] theorem State.returnCall_refused (s : State) (r : Ret) : (s.returnCall r).refused = s.refused := by simp [State.returnCall]
@[simp] theorem State.returnCall_reg (s : State) (r : Ret) : (s.returnCall r).reg = s.reg := by simp [State.returnCall]
@[simp] theorem State.returnCall_hostIe (s : State) (r : Ret) : (s.returnCall r).hostIe = s.hostIe := by simp [State.returnCall]
@[simp] theorem State.returnCall_delivered (s : State) (r : Ret) : (s.returnCall r).delivered = s.delivered := by simp [State.returnCall]
@[simp] theorem State.returnCall_program (s : State) (r : Ret) : (s.returnCall r).program = s.program := by simp [State.returnCall]
@[simp] theorem State.returnCall_callbackPrograms (s : State) (r : Ret) : (s.returnCall r).callbackPrograms = s.callbackPrograms := by simp [State.returnCall]
@[simp] theorem State.returnCall_turns (s : State) (r : Ret) : (s.returnCall r).turns = s.turns := by simp [State.returnCall]
@[simp] theorem State.returnCall_fresh (s : State) (r : Ret) : (s.returnCall r).fresh = s.fresh := by simp [State.returnCall]
@[simp] theorem State.returnCall_params (s : State) (r : Ret) : (s.returnCall r).params = s.params := by simp [State.returnCall]

/-! ### State.continueCall -/
@[simp] theorem State.continueCall_block (s : State) (c : CtxId) (todo : List Micro) (rest : List Activation) : (s.continueCall c todo rest).block = s.block := by simp [State.continueCall]
@[simp] theorem State.continueCall_clkEn (s : State) (c : CtxId) (todo : List Micro) (rest : List Activation) : (s.continueCall c todo rest).clkEn = s.clkEn := by simp [State.continueCall]
@[simp] theorem State.continueCall_rst (s : State) (c : CtxId) (todo : List Micro) (rest : List Activation) : (s.continueCall c todo rest).rst = s.rst := by simp [State.continueCall]
@[simp] theorem State.continueCall_faults (s : State) (c : CtxId) (todo : List Micro) (rest : List Activation) : (s.continueCall c todo rest).faults = s.faults := by simp [State.continueCall]
@[simp] theorem State.continueCall_refused (s : State) (c : CtxId) (todo : List Micro) (rest : List Activation) : (s.continueCall c todo rest).refused = s.refused := by simp [State.continueCall]
@[simp] theorem State.continueCall_reg (s : State) (c : CtxId) (todo : List Micro) (rest : List Activation) : (s.continueCall c todo rest).reg = s.reg := by simp [State.continueCall]
@[simp] theorem State.continueCall_hostIe (s : State) (c : CtxId) (todo : List Micro) (rest : List Activation) : (s.continueCall c todo rest).hostIe = s.hostIe := by simp [State.continueCall]
@[simp] theorem State.continueCall_delivered (s : State) (c : CtxId) (todo : List Micro) (rest : List Activation) : (s.continueCall c todo rest).delivered = s.delivered := by simp [State.continueCall]
@[simp] theorem State.continueCall_program (s : State) (c : CtxId) (todo : List Micro) (rest : List Activation) : (s.continueCall c todo rest).program = s.program := by simp [State.continueCall]
@[simp] theorem State.continueCall_callbackPrograms (s : State) (c : CtxId) (todo : List Micro) (rest : List Activation) : (s.continueCall c todo rest).callbackPrograms = s.callbackPrograms := by simp [State.continueCall]
@[simp] theorem State.continueCall_turns (s : State) (c : CtxId) (todo : List Micro) (rest : List Activation) : (s.continueCall c todo rest).turns = s.turns := by simp [State.continueCall]
@[simp] theorem State.continueCall_fresh (s : State) (c : CtxId) (todo : List Micro) (rest : List Activation) : (s.continueCall c todo rest).fresh = s.fresh := by simp [State.continueCall]
@[simp] theorem State.continueCall_params (s : State) (c : CtxId) (todo : List Micro) (rest : List Activation) : (s.continueCall c todo rest).params = s.params := by simp [State.continueCall]

/-! ### State.beginCall -/
@[simp] theorem State.beginCall_block (s : State) (c : CtxId) (todo : List Micro) : (s.beginCall c todo).block = s.block := by simp [State.beginCall]
@[simp] theorem State.beginCall_clkEn (s : State) (c : CtxId) (todo : List Micro) : (s.beginCall c todo).clkEn = s.clkEn := by simp [State.beginCall]
@[simp] theorem State.beginCall_rst (s : State) (c : CtxId) (todo : List Micro) : (s.beginCall c todo).rst = s.rst := by simp [State.beginCall]
@[simp] theorem State.beginCall_faults (s : State) (c : CtxId) (todo : List Micro) : (s.beginCall c todo).faults = s.faults := by simp [State.beginCall]
@[simp] theorem State.beginCall_refused (s : State) (c : CtxId) (todo : List Micro) : (s.beginCall c todo).refused = s.refused := by simp [State.beginCall]
@[simp] theorem State.beginCall_reg (s : State) (c : CtxId) (todo : List Micro) : (s.beginCall c todo).reg = s.reg := by simp [State.beginCall]
@[simp] theorem State.beginCall_hostIe (s : State) (c : CtxId) (todo : List Micro) : (s.beginCall c todo).hostIe = s.hostIe := by simp [State.beginCall]
@[simp] theorem State.beginCall_delivered (s : State) (c : CtxId) (todo : List Micro) : (s.beginCall c todo).delivered = s.delivered := by simp [State.beginCall]
@[simp] theorem State.beginCall_program (s : State) (c : CtxId) (todo : List Micro) : (s.beginCall c todo).program = s.program := by simp [State.beginCall]
@[simp] theorem State.beginCall_callbackPrograms (s : State) (c : CtxId) (todo : List Micro) : (s.beginCall c todo).callbackPrograms = s.callbackPrograms := by simp [State.beginCall]
@[simp] theorem State.beginCall_turns (s : State) (c : CtxId) (todo : List Micro) : (s.beginCall c todo).turns = s.turns := by simp [State.beginCall]
@[simp] theorem State.beginCall_fresh (s : State) (c : CtxId) (todo : List Micro) : (s.beginCall c todo).fresh = s.fresh := by simp [State.beginCall]
@[simp] theorem State.beginCall_params (s : State) (c : CtxId) (todo : List Micro) : (s.beginCall c todo).params = s.params := by simp [State.beginCall]

/-! ### State.callbackLeft -/
@[simp] theorem State.callbackLeft_block (s : State) (c : CtxId) (ops : List HostOp) (rest : List Activation) : (s.callbackLeft c ops rest).block = s.block := by simp [State.callbackLeft]
@[simp] theorem State.callbackLeft_clkEn (s : State) (c : CtxId) (ops : List HostOp) (rest : List Activation) : (s.callbackLeft c ops rest).clkEn = s.clkEn := by simp [State.callbackLeft]
@[simp] theorem State.callbackLeft_rst (s : State) (c : CtxId) (ops : List HostOp) (rest : List Activation) : (s.callbackLeft c ops rest).rst = s.rst := by simp [State.callbackLeft]
@[simp] theorem State.callbackLeft_faults (s : State) (c : CtxId) (ops : List HostOp) (rest : List Activation) : (s.callbackLeft c ops rest).faults = s.faults := by simp [State.callbackLeft]
@[simp] theorem State.callbackLeft_refused (s : State) (c : CtxId) (ops : List HostOp) (rest : List Activation) : (s.callbackLeft c ops rest).refused = s.refused := by simp [State.callbackLeft]
@[simp] theorem State.callbackLeft_reg (s : State) (c : CtxId) (ops : List HostOp) (rest : List Activation) : (s.callbackLeft c ops rest).reg = s.reg := by simp [State.callbackLeft]
@[simp] theorem State.callbackLeft_hostIe (s : State) (c : CtxId) (ops : List HostOp) (rest : List Activation) : (s.callbackLeft c ops rest).hostIe = s.hostIe := by simp [State.callbackLeft]
@[simp] theorem State.callbackLeft_delivered (s : State) (c : CtxId) (ops : List HostOp) (rest : List Activation) : (s.callbackLeft c ops rest).delivered = s.delivered := by simp [State.callbackLeft]
@[simp] theorem State.callbackLeft_program (s : State) (c : CtxId) (ops : List HostOp) (rest : List Activation) : (s.callbackLeft c ops rest).program = s.program := by simp [State.callbackLeft]
@[simp] theorem State.callbackLeft_callbackPrograms (s : State) (c : CtxId) (ops : List HostOp) (rest : List Activation) : (s.callbackLeft c ops rest).callbackPrograms = s.callbackPrograms := by simp [State.callbackLeft]
@[simp] theorem State.callbackLeft_turns (s : State) (c : CtxId) (ops : List HostOp) (rest : List Activation) : (s.callbackLeft c ops rest).turns = s.turns := by simp [State.callbackLeft]
@[simp] theorem State.callbackLeft_fresh (s : State) (c : CtxId) (ops : List HostOp) (rest : List Activation) : (s.callbackLeft c ops rest).fresh = s.fresh := by simp [State.callbackLeft]
@[simp] theorem State.callbackLeft_params (s : State) (c : CtxId) (ops : List HostOp) (rest : List Activation) : (s.callbackLeft c ops rest).params = s.params := by simp [State.callbackLeft]
@[simp] theorem State.callbackLeft_irq_main (s : State) (ops : List HostOp) (rest : List Activation) : (s.callbackLeft .irq ops rest).main = s.main := rfl

/-! ### State.endCallback -/
@[simp] theorem State.endCallback_block (s : State) (c : CtxId) (rest : List Activation) : (s.endCallback c rest).block = s.block := by simp [State.endCallback]
@[simp] theorem State.endCallback_clkEn (s : State) (c : CtxId) (rest : List Activation) : (s.endCallback c rest).clkEn = s.clkEn := by simp [State.endCallback]
@[simp] theorem State.endCallback_rst (s : State) (c : CtxId) (rest : List Activation) : (s.endCallback c rest).rst = s.rst := by simp [State.endCallback]
@[simp] theorem State.endCallback_faults (s : State) (c : CtxId) (rest : List Activation) : (s.endCallback c rest).faults = s.faults := by simp [State.endCallback]
@[simp] theorem State.endCallback_refused (s : State) (c : CtxId) (rest : List Activation) : (s.endCallback c rest).refused = s.refused := by simp [State.endCallback]
@[simp] theorem State.endCallback_reg (s : State) (c : CtxId) (rest : List Activation) : (s.endCallback c rest).reg = s.reg := by simp [State.endCallback]
@[simp] theorem State.endCallback_hostIe (s : State) (c : CtxId) (rest : List Activation) : (s.endCallback c rest).hostIe = s.hostIe := by simp [State.endCallback]
@[simp] theorem State.endCallback_delivered (s : State) (c : CtxId) (rest : List Activation) : (s.endCallback c rest).delivered = s.delivered := by simp [State.endCallback]
@[simp] theorem State.endCallback_program (s : State) (c : CtxId) (rest : List Activation) : (s.endCallback c rest).program = s.program := by simp [State.endCallback]
@[simp] theorem State.endCallback_callbackPrograms (s : State) (c : CtxId) (rest : List Activation) : (s.endCallback c rest).callbackPrograms = s.callbackPrograms := by simp [State.endCallback]
@[simp] theorem State.endCallback_turns (s : State) (c : CtxId) (rest : List Activation) : (s.endCallback c rest).turns = s.turns := by simp [State.endCallback]
@[simp] theorem State.endCallback_fresh (s : State) (c : CtxId) (rest : List Activation) : (s.endCallback c rest).fresh = s.fresh := by simp [State.endCallback]
@[simp] theorem State.endCallback_params (s : State) (c : CtxId) (rest : List Activation) : (s.endCallback c rest).params = s.params := by simp [State.endCallback]

/-! ### State.recordFault -/
@[simp] theorem State.recordFault_block (s : State) (f : BusFault) : (s.recordFault f).block = s.block := by unfold State.recordFault; split <;> rfl
@[simp] theorem State.recordFault_clkEn (s : State) (f : BusFault) : (s.recordFault f).clkEn = s.clkEn := by unfold State.recordFault; split <;> rfl
@[simp] theorem State.recordFault_rst (s : State) (f : BusFault) : (s.recordFault f).rst = s.rst := by unfold State.recordFault; split <;> rfl
@[simp] theorem State.recordFault_refused (s : State) (f : BusFault) : (s.recordFault f).refused = s.refused := by unfold State.recordFault; split <;> rfl
@[simp] theorem State.recordFault_reg (s : State) (f : BusFault) : (s.recordFault f).reg = s.reg := by unfold State.recordFault; split <;> rfl
@[simp] theorem State.recordFault_hostIe (s : State) (f : BusFault) : (s.recordFault f).hostIe = s.hostIe := by unfold State.recordFault; split <;> rfl
@[simp] theorem State.recordFault_main (s : State) (f : BusFault) : (s.recordFault f).main = s.main := by unfold State.recordFault; split <;> rfl
@[simp] theorem State.recordFault_irq (s : State) (f : BusFault) : (s.recordFault f).irq = s.irq := by unfold State.recordFault; split <;> rfl
@[simp] theorem State.recordFault_delivered (s : State) (f : BusFault) : (s.recordFault f).delivered = s.delivered := by unfold State.recordFault; split <;> rfl
@[simp] theorem State.recordFault_program (s : State) (f : BusFault) : (s.recordFault f).program = s.program := by unfold State.recordFault; split <;> rfl
@[simp] theorem State.recordFault_callbackPrograms (s : State) (f : BusFault) : (s.recordFault f).callbackPrograms = s.callbackPrograms := by unfold State.recordFault; split <;> rfl
@[simp] theorem State.recordFault_turns (s : State) (f : BusFault) : (s.recordFault f).turns = s.turns := by unfold State.recordFault; split <;> rfl
@[simp] theorem State.recordFault_fresh (s : State) (f : BusFault) : (s.recordFault f).fresh = s.fresh := by unfold State.recordFault; split <;> rfl
@[simp] theorem State.recordFault_params (s : State) (f : BusFault) : (s.recordFault f).params = s.params := by unfold State.recordFault; split <;> rfl

/-! ### State.hostRead -/
@[simp] theorem State.hostRead_block (s : State) (r : Reg) : (s.hostRead r).block = s.block.afterRead r := by simp [State.hostRead]
@[simp] theorem State.hostRead_clkEn (s : State) (r : Reg) : (s.hostRead r).clkEn = s.clkEn := by simp [State.hostRead]
@[simp] theorem State.hostRead_rst (s : State) (r : Reg) : (s.hostRead r).rst = s.rst := by simp [State.hostRead]
@[simp] theorem State.hostRead_faults (s : State) (r : Reg) : (s.hostRead r).faults = s.faults := by simp [State.hostRead]
@[simp] theorem State.hostRead_refused (s : State) (r : Reg) : (s.hostRead r).refused = s.refused := by simp [State.hostRead]
@[simp] theorem State.hostRead_reg (s : State) (r : Reg) : (s.hostRead r).reg = s.reg := by simp [State.hostRead]
@[simp] theorem State.hostRead_hostIe (s : State) (r : Reg) : (s.hostRead r).hostIe = s.hostIe := by simp [State.hostRead]
@[simp] theorem State.hostRead_delivered (s : State) (r : Reg) : (s.hostRead r).delivered = s.delivered := by simp [State.hostRead]
@[simp] theorem State.hostRead_program (s : State) (r : Reg) : (s.hostRead r).program = s.program := by simp [State.hostRead]
@[simp] theorem State.hostRead_callbackPrograms (s : State) (r : Reg) : (s.hostRead r).callbackPrograms = s.callbackPrograms := by simp [State.hostRead]
@[simp] theorem State.hostRead_turns (s : State) (r : Reg) : (s.hostRead r).turns = s.turns := by simp [State.hostRead]
@[simp] theorem State.hostRead_fresh (s : State) (r : Reg) : (s.hostRead r).fresh = s.fresh + 1 := by simp [State.hostRead]
@[simp] theorem State.hostRead_params (s : State) (r : Reg) : (s.hostRead r).params = s.params := by simp [State.hostRead]

/-! ### State.hostReadWide -/
@[simp] theorem State.hostReadWide_block (s : State) (r : Reg) : (s.hostReadWide r).block = s.block.afterRead r := by simp [State.hostReadWide]
@[simp] theorem State.hostReadWide_clkEn (s : State) (r : Reg) : (s.hostReadWide r).clkEn = s.clkEn := by simp [State.hostReadWide]
@[simp] theorem State.hostReadWide_rst (s : State) (r : Reg) : (s.hostReadWide r).rst = s.rst := by simp [State.hostReadWide]
@[simp] theorem State.hostReadWide_faults (s : State) (r : Reg) : (s.hostReadWide r).faults = s.faults := by simp [State.hostReadWide]
@[simp] theorem State.hostReadWide_refused (s : State) (r : Reg) : (s.hostReadWide r).refused = s.refused := by simp [State.hostReadWide]
@[simp] theorem State.hostReadWide_reg (s : State) (r : Reg) : (s.hostReadWide r).reg = s.reg := by simp [State.hostReadWide]
@[simp] theorem State.hostReadWide_hostIe (s : State) (r : Reg) : (s.hostReadWide r).hostIe = s.hostIe := by simp [State.hostReadWide]
@[simp] theorem State.hostReadWide_delivered (s : State) (r : Reg) : (s.hostReadWide r).delivered = s.delivered := by simp [State.hostReadWide]
@[simp] theorem State.hostReadWide_program (s : State) (r : Reg) : (s.hostReadWide r).program = s.program := by simp [State.hostReadWide]
@[simp] theorem State.hostReadWide_callbackPrograms (s : State) (r : Reg) : (s.hostReadWide r).callbackPrograms = s.callbackPrograms := by simp [State.hostReadWide]
@[simp] theorem State.hostReadWide_turns (s : State) (r : Reg) : (s.hostReadWide r).turns = s.turns := by simp [State.hostReadWide]
@[simp] theorem State.hostReadWide_fresh (s : State) (r : Reg) : (s.hostReadWide r).fresh = s.fresh + 2 := by simp [State.hostReadWide]
@[simp] theorem State.hostReadWide_params (s : State) (r : Reg) : (s.hostReadWide r).params = s.params := by simp [State.hostReadWide]

/-! ### State.hostWrite -/
@[simp] theorem State.hostWrite_clkEn (s : State) (r : Reg) (v : Word) : (s.hostWrite r v).clkEn = s.clkEn := by unfold State.hostWrite; split <;> simp
@[simp] theorem State.hostWrite_rst (s : State) (r : Reg) (v : Word) : (s.hostWrite r v).rst = s.rst := by unfold State.hostWrite; split <;> simp
@[simp] theorem State.hostWrite_refused (s : State) (r : Reg) (v : Word) : (s.hostWrite r v).refused = s.refused := by unfold State.hostWrite; split <;> simp
@[simp] theorem State.hostWrite_reg (s : State) (r : Reg) (v : Word) : (s.hostWrite r v).reg = s.reg := by unfold State.hostWrite; split <;> simp
@[simp] theorem State.hostWrite_hostIe (s : State) (r : Reg) (v : Word) : (s.hostWrite r v).hostIe = s.hostIe := by unfold State.hostWrite; split <;> simp
@[simp] theorem State.hostWrite_main (s : State) (r : Reg) (v : Word) : (s.hostWrite r v).main = s.main := by unfold State.hostWrite; split <;> simp
@[simp] theorem State.hostWrite_irq (s : State) (r : Reg) (v : Word) : (s.hostWrite r v).irq = s.irq := by unfold State.hostWrite; split <;> simp
@[simp] theorem State.hostWrite_delivered (s : State) (r : Reg) (v : Word) : (s.hostWrite r v).delivered = s.delivered := by unfold State.hostWrite; split <;> simp
@[simp] theorem State.hostWrite_program (s : State) (r : Reg) (v : Word) : (s.hostWrite r v).program = s.program := by unfold State.hostWrite; split <;> simp
@[simp] theorem State.hostWrite_callbackPrograms (s : State) (r : Reg) (v : Word) : (s.hostWrite r v).callbackPrograms = s.callbackPrograms := by unfold State.hostWrite; split <;> simp
@[simp] theorem State.hostWrite_turns (s : State) (r : Reg) (v : Word) : (s.hostWrite r v).turns = s.turns := by unfold State.hostWrite; split <;> simp
@[simp] theorem State.hostWrite_fresh (s : State) (r : Reg) (v : Word) : (s.hostWrite r v).fresh = s.fresh := by unfold State.hostWrite; split <;> simp
@[simp] theorem State.hostWrite_params (s : State) (r : Reg) (v : Word) : (s.hostWrite r v).params = s.params := by unfold State.hostWrite; split <;> simp

/-! ### State.xferStep -/
@[simp] theorem State.xferStep_clkEn (s : State) (k : IfId) : (s.xferStep k).clkEn = s.clkEn := by unfold State.xferStep; split <;> simp
@[simp] theorem State.xferStep_rst (s : State) (k : IfId) : (s.xferStep k).rst = s.rst := by unfold State.xferStep; split <;> simp
@[simp] theorem State.xferStep_faults (s : State) (k : IfId) : (s.xferStep k).faults = s.faults := by unfold State.xferStep; split <;> simp
@[simp] theorem State.xferStep_refused (s : State) (k : IfId) : (s.xferStep k).refused = s.refused := by unfold State.xferStep; split <;> simp
@[simp] theorem State.xferStep_reg (s : State) (k : IfId) : (s.xferStep k).reg = s.reg := by unfold State.xferStep; split <;> simp
@[simp] theorem State.xferStep_hostIe (s : State) (k : IfId) : (s.xferStep k).hostIe = s.hostIe := by unfold State.xferStep; split <;> simp
@[simp] theorem State.xferStep_main (s : State) (k : IfId) : (s.xferStep k).main = s.main := by unfold State.xferStep; split <;> simp
@[simp] theorem State.xferStep_irq (s : State) (k : IfId) : (s.xferStep k).irq = s.irq := by unfold State.xferStep; split <;> simp
@[simp] theorem State.xferStep_delivered (s : State) (k : IfId) : (s.xferStep k).delivered = s.delivered := by unfold State.xferStep; split <;> simp
@[simp] theorem State.xferStep_program (s : State) (k : IfId) : (s.xferStep k).program = s.program := by unfold State.xferStep; split <;> simp
@[simp] theorem State.xferStep_callbackPrograms (s : State) (k : IfId) : (s.xferStep k).callbackPrograms = s.callbackPrograms := by unfold State.xferStep; split <;> simp
@[simp] theorem State.xferStep_turns (s : State) (k : IfId) : (s.xferStep k).turns = s.turns := by unfold State.xferStep; split <;> simp
@[simp] theorem State.xferStep_fresh (s : State) (k : IfId) : (s.xferStep k).fresh = s.fresh := by unfold State.xferStep; split <;> simp
@[simp] theorem State.xferStep_params (s : State) (k : IfId) : (s.xferStep k).params = s.params := by unfold State.xferStep; split <;> simp

/-! ### State.peStep -/
@[simp] theorem State.peStep_clkEn (s : State) (e : PeEvent) : (s.peStep e).clkEn = s.clkEn := by unfold State.peStep; split <;> simp
@[simp] theorem State.peStep_rst (s : State) (e : PeEvent) : (s.peStep e).rst = s.rst := by unfold State.peStep; split <;> simp
@[simp] theorem State.peStep_faults (s : State) (e : PeEvent) : (s.peStep e).faults = s.faults := by unfold State.peStep; split <;> simp
@[simp] theorem State.peStep_refused (s : State) (e : PeEvent) : (s.peStep e).refused = s.refused := by unfold State.peStep; split <;> simp
@[simp] theorem State.peStep_reg (s : State) (e : PeEvent) : (s.peStep e).reg = s.reg := by unfold State.peStep; split <;> simp
@[simp] theorem State.peStep_hostIe (s : State) (e : PeEvent) : (s.peStep e).hostIe = s.hostIe := by unfold State.peStep; split <;> simp
@[simp] theorem State.peStep_main (s : State) (e : PeEvent) : (s.peStep e).main = s.main := by unfold State.peStep; split <;> simp
@[simp] theorem State.peStep_irq (s : State) (e : PeEvent) : (s.peStep e).irq = s.irq := by unfold State.peStep; split <;> simp
@[simp] theorem State.peStep_delivered (s : State) (e : PeEvent) : (s.peStep e).delivered = s.delivered := by unfold State.peStep; split <;> simp
@[simp] theorem State.peStep_program (s : State) (e : PeEvent) : (s.peStep e).program = s.program := by unfold State.peStep; split <;> simp
@[simp] theorem State.peStep_callbackPrograms (s : State) (e : PeEvent) : (s.peStep e).callbackPrograms = s.callbackPrograms := by unfold State.peStep; split <;> simp
@[simp] theorem State.peStep_turns (s : State) (e : PeEvent) : (s.peStep e).turns = s.turns := by unfold State.peStep; split <;> simp
@[simp] theorem State.peStep_fresh (s : State) (e : PeEvent) : (s.peStep e).fresh = s.fresh := by unfold State.peStep; split <;> simp
@[simp] theorem State.peStep_params (s : State) (e : PeEvent) : (s.peStep e).params = s.params := by unfold State.peStep; split <;> simp

/-! ### State.envReset -/
@[simp] theorem State.envReset_true_block (s : State) : (s.envReset true).block = Block.afterReset (Config.freeBlock s.fresh) := rfl
@[simp] theorem State.envReset_false_block (s : State) : (s.envReset false).block = s.block := rfl
@[simp] theorem State.envReset_clkEn (s : State) (b : Bool) : (s.envReset b).clkEn = s.clkEn := by cases b <;> rfl
@[simp] theorem State.envReset_rst (s : State) (b : Bool) : (s.envReset b).rst = b := by cases b <;> rfl
@[simp] theorem State.envReset_faults (s : State) (b : Bool) : (s.envReset b).faults = s.faults := by cases b <;> rfl
@[simp] theorem State.envReset_refused (s : State) (b : Bool) : (s.envReset b).refused = s.refused := by cases b <;> rfl
@[simp] theorem State.envReset_reg (s : State) (b : Bool) : (s.envReset b).reg = s.reg := by cases b <;> rfl
@[simp] theorem State.envReset_hostIe (s : State) (b : Bool) : (s.envReset b).hostIe = s.hostIe := by cases b <;> rfl
@[simp] theorem State.envReset_main (s : State) (b : Bool) : (s.envReset b).main = s.main := by cases b <;> rfl
@[simp] theorem State.envReset_irq (s : State) (b : Bool) : (s.envReset b).irq = s.irq := by cases b <;> rfl
@[simp] theorem State.envReset_delivered (s : State) (b : Bool) : (s.envReset b).delivered = s.delivered := by cases b <;> rfl
@[simp] theorem State.envReset_program (s : State) (b : Bool) : (s.envReset b).program = s.program := by cases b <;> rfl
@[simp] theorem State.envReset_callbackPrograms (s : State) (b : Bool) : (s.envReset b).callbackPrograms = s.callbackPrograms := by cases b <;> rfl
@[simp] theorem State.envReset_turns (s : State) (b : Bool) : (s.envReset b).turns = s.turns := by cases b <;> rfl
@[simp] theorem State.envReset_params (s : State) (b : Bool) : (s.envReset b).params = s.params := by cases b <;> rfl

/-! ### Contexts -/

@[simp] theorem State.ctx_setCtx_same (s : State) (c : CtxId) (x : HostCtx) : (s.setCtx c x).ctx c = x := by cases c <;> rfl
theorem State.ctx_setCtx_other (s : State) {c d : CtxId} (h : d ≠ c) (x : HostCtx) : (s.setCtx c x).ctx d = s.ctx d := by
  cases c <;> cases d <;> first | rfl | exact absurd rfl h
@[simp] theorem State.setCtx_setCtx (s : State) (c : CtxId) (x y : HostCtx) : (s.setCtx c x).setCtx c y = s.setCtx c y := by
  cases c <;> rfl
@[simp] theorem State.setCtx_ctx (s : State) (c : CtxId) : s.setCtx c (s.ctx c) = s := by cases c <;> rfl
@[simp] theorem State.ctx_withBlock (s : State) (b : Block) (c : CtxId) : (s.withBlock b).ctx c = s.ctx c := by cases c <;> rfl
@[simp] theorem State.ctx_spend (s : State) (k : Nat) (c : CtxId) : (s.spend k).ctx c = s.ctx c := by cases c <;> rfl
@[simp] theorem State.ctx_withTurns (s : State) (ts : List Turn) (c : CtxId) : (s.withTurns ts).ctx c = s.ctx c := by cases c <;> rfl
@[simp] theorem State.ctx_recordFault (s : State) (f : BusFault) (c : CtxId) : (s.recordFault f).ctx c = s.ctx c := by
  cases c <;> simp [State.ctx]
@[simp] theorem State.ctx_xferStep (s : State) (k : IfId) (c : CtxId) : (s.xferStep k).ctx c = s.ctx c := by
  cases c <;> simp [State.ctx]
@[simp] theorem State.ctx_peStep (s : State) (e : PeEvent) (c : CtxId) : (s.peStep e).ctx c = s.ctx c := by
  cases c <;> simp [State.ctx]
@[simp] theorem State.ctx_hostWrite (s : State) (r : Reg) (v : Word) (c : CtxId) : (s.hostWrite r v).ctx c = s.ctx c := by
  cases c <;> simp [State.ctx]
@[simp] theorem State.admitted_setCtx (s : State) (c : CtxId) (x : HostCtx) : (s.setCtx c x).admitted = s.admitted := by
  simp [State.admitted]
@[simp] theorem State.admitted_withBlock (s : State) (b : Block) : (s.withBlock b).admitted = s.admitted := rfl
@[simp] theorem State.admitted_withTurns (s : State) (ts : List Turn) : (s.withTurns ts).admitted = s.admitted := rfl
@[simp] theorem State.running_withBlock (s : State) (b : Block) : (s.withBlock b).running = s.running := rfl
@[simp] theorem State.running_withTurns (s : State) (ts : List Turn) : (s.withTurns ts).running = s.running := rfl

/-! ### Interfaces and objects of the block -/

@[simp] theorem Block.setIface_cntl (b : Block) (k : IfId) (f : Iface) : (b.setIface k f).cntl = b.cntl := by cases k <;> rfl
@[simp] theorem Block.setIface_stat (b : Block) (k : IfId) (f : Iface) : (b.setIface k f).stat = b.stat := by cases k <;> rfl
@[simp] theorem Block.setIface_ec (b : Block) (k : IfId) (f : Iface) : (b.setIface k f).ec = b.ec := by cases k <;> rfl
@[simp] theorem Block.setIface_bt (b : Block) (k : IfId) (f : Iface) : (b.setIface k f).bt = b.bt := by cases k <;> rfl
@[simp] theorem Block.setIface_clkdiv (b : Block) (k : IfId) (f : Iface) : (b.setIface k f).clkdiv = b.clkdiv := by cases k <;> rfl
@[simp] theorem Block.setIface_test (b : Block) (k : IfId) (f : Iface) : (b.setIface k f).test = b.test := by cases k <;> rfl
@[simp] theorem Block.setIface_objs (b : Block) (k : IfId) (f : Iface) : (b.setIface k f).objs = b.objs := by cases k <;> rfl
@[simp] theorem Block.setIface_statInt (b : Block) (k : IfId) (f : Iface) : (b.setIface k f).statInt = b.statInt := by cases k <;> rfl
@[simp] theorem Block.setIface_initPending (b : Block) (k : IfId) (f : Iface) : (b.setIface k f).initPending = b.initPending := by cases k <;> rfl
@[simp] theorem Block.setObj_cntl (b : Block) (n : Slot) (o : Obj) : (b.setObj n o).cntl = b.cntl := rfl
@[simp] theorem Block.setObj_stat (b : Block) (n : Slot) (o : Obj) : (b.setObj n o).stat = b.stat := rfl
@[simp] theorem Block.setObj_ec (b : Block) (n : Slot) (o : Obj) : (b.setObj n o).ec = b.ec := rfl
@[simp] theorem Block.setObj_bt (b : Block) (n : Slot) (o : Obj) : (b.setObj n o).bt = b.bt := rfl
@[simp] theorem Block.setObj_clkdiv (b : Block) (n : Slot) (o : Obj) : (b.setObj n o).clkdiv = b.clkdiv := rfl
@[simp] theorem Block.setObj_test (b : Block) (n : Slot) (o : Obj) : (b.setObj n o).test = b.test := rfl
@[simp] theorem Block.setObj_if1 (b : Block) (n : Slot) (o : Obj) : (b.setObj n o).if1 = b.if1 := rfl
@[simp] theorem Block.setObj_if2 (b : Block) (n : Slot) (o : Obj) : (b.setObj n o).if2 = b.if2 := rfl
@[simp] theorem Block.setObj_statInt (b : Block) (n : Slot) (o : Obj) : (b.setObj n o).statInt = b.statInt := rfl
@[simp] theorem Block.setObj_initPending (b : Block) (n : Slot) (o : Obj) : (b.setObj n o).initPending = b.initPending := rfl
@[simp] theorem Block.iface_setIface_same (b : Block) (k : IfId) (f : Iface) : (b.setIface k f).iface k = f := by cases k <;> rfl
theorem Block.iface_setIface_other (b : Block) {k j : IfId} (h : j ≠ k) (f : Iface) : (b.setIface k f).iface j = b.iface j := by
  cases k <;> cases j <;> first | rfl | exact absurd rfl h
@[simp] theorem Block.setIface_setIface (b : Block) (k : IfId) (f g : Iface) : (b.setIface k f).setIface k g = b.setIface k g := by
  cases k <;> rfl
@[simp] theorem Block.setIface_iface (b : Block) (k : IfId) : b.setIface k (b.iface k) = b := by cases k <;> rfl
@[simp] theorem Block.obj_setIface (b : Block) (k : IfId) (f : Iface) (n : Slot) : (b.setIface k f).obj n = b.obj n := by
  cases k <;> rfl
@[simp] theorem Block.iface_setObj (b : Block) (n : Slot) (o : Obj) (k : IfId) : (b.setObj n o).iface k = b.iface k := by
  cases k <;> rfl
@[simp] theorem Block.obj_setObj_same (b : Block) (n : Slot) (o : Obj) : (b.setObj n o).obj n = o := by
  simp [Block.obj, Block.setObj]
theorem Block.obj_setObj_other (b : Block) {n m : Slot} (h : m ≠ n) (o : Obj) : (b.setObj n o).obj m = b.obj m := by
  have : n.val ≠ m.val := fun e => h (Fin.ext e.symm)
  simp [Block.obj, Block.setObj, this]
@[simp] theorem Block.setObj_setObj (b : Block) (n : Slot) (o p : Obj) : (b.setObj n o).setObj n p = b.setObj n p := by
  simp [Block.setObj]
theorem Block.setObj_setIface (b : Block) (k : IfId) (f : Iface) (n : Slot) (o : Obj) :
    (b.setIface k f).setObj n o = (b.setObj n o).setIface k f := by cases k <;> rfl

end Sys2Proof.Machine
end

