-- ==== Sys2Proof/Laws/Access.lean ====
section
/-! SUPPORT. What a bus read and a bus write can do, and what a read shows: one lemma per operation. -/

namespace Sys2Proof.Machine

/-- A state is admitted exactly with the clock on and reset released. -/
theorem State.admitted_iff {s : State} : s.admitted = true ↔ s.clkEn = true ∧ s.rst = false := by
  simp [State.admitted]

/-- All a 16-bit read does. -/
theorem State.hostRead_eq (s : State) (r : Reg) :
    s.hostRead r = ({ s with block := s.block.afterRead r, fresh := s.fresh + 1 } : State).setCtx s.running
      { s.ctx s.running with rdata := (s.readWord r).setWidth 32 } := by
  unfold State.hostRead State.returnRead
  generalize s.running = c
  cases c <;> rfl

/-- All a 32-bit read does. -/
theorem State.hostReadWide_eq (s : State) (r : Reg) :
    s.hostReadWide r = ({ s with block := s.block.afterRead r, fresh := s.fresh + 2 } : State).setCtx s.running
      { s.ctx s.running with rdata := Config.freeWord (s.fresh + 1) ++ s.readWord r } := by
  unfold State.hostReadWide State.returnRead
  generalize s.running = c
  cases c <;> rfl

/-- Every read row is an admitted read of its register, or has no step. -/
theorem exec_readOp (r : Reg) (s : State) : exec (readOp r) s = busRead r s := by
  cases r with
  | iface k x => cases k <;> cases x <;> rfl
  | txreq h => cases h <;> rfl
  | nd h => cases h <;> rfl
  | ir h => cases h <;> rfl
  | msgv h => cases h <;> rfl
  | _ => rfl

/-- Every write row is an admitted write of its register, or has no step. -/
theorem exec_writeOp {r : Reg} {v : Word} {i : Instr} (h : writeOp r v = some i) (s : State) : exec i s = busWrite r v s := by
  cases r with
  | iface k x => cases k <;> cases x <;> (cases h; rfl)
  | _ => first | (cases h; done) | (cases h; rfl)

/-- An admitted write is stored or is a recorded fault. -/
theorem busWrite_next {r : Reg} {v : Word} {s t : State} (h : busWrite r v s = .next t) :
    s.admitted = true ∧ ((∃ b, s.block.writeReg r v = .stored b ∧ t = s.withBlock b) ∨
      (∃ f, s.block.writeReg r v = .fault f ∧ t = s.recordFault f)) := by
  unfold busWrite at h
  split at h
  · rename_i ha
    refine ⟨ha, ?_⟩
    unfold State.hostWrite at h
    cases hw : s.block.writeReg r v with
    | stored b => left; rw [hw] at h; exact ⟨b, rfl, by cases h; rfl⟩
    | fault f => right; rw [hw] at h; exact ⟨f, rfl, by cases h; rfl⟩
  · cases h

/-- The effect of an admitted read. -/
theorem busRead_admitted {s : State} (ha : s.admitted = true) (r : Reg) : busRead r s = .next (s.hostRead r) := by
  simp [busRead, ha]

theorem busWrite_stored {s : State} (ha : s.admitted = true) {r : Reg} {v : Word} {b : Block}
    (h : s.block.writeReg r v = .stored b) : busWrite r v s = .next (s.withBlock b) := by
  simp [busWrite, ha, State.hostWrite, h]

theorem busWrite_fault {s : State} (ha : s.admitted = true) {r : Reg} {v : Word} {f : BusFault}
    (h : s.block.writeReg r v = .fault f) : busWrite r v s = .next (s.recordFault f) := by
  simp [busWrite, ha, State.hostWrite, h]

/-- The recorded faults after one more: exactly that one is added, and nothing else changes. -/
theorem State.mem_recordFault (s : State) (f g : BusFault) : g ∈ (s.recordFault f).faults ↔ g ∈ s.faults ∨ g = f := by
  unfold State.recordFault
  split
  · rename_i h
    simp at h
    constructor
    · exact .inl
    · rintro (h' | rfl) <;> assumption
  · simp

theorem State.recordFault_rest (s : State) (f : BusFault) : ({ s.recordFault f with faults := s.faults } : State) = s := by
  unfold State.recordFault
  split <;> rfl

theorem State.recordFault_prefix (s : State) (f : BusFault) : s.faults <+: (s.recordFault f).faults := by
  unfold State.recordFault
  split
  · exact List.prefix_refl _
  · exact List.prefix_append _ _

theorem State.recordFault_nodup {s : State} (f : BusFault) (h : s.faults.Nodup) : (s.recordFault f).faults.Nodup := by
  unfold State.recordFault
  split
  · exact h
  · rename_i hn
    simp at hn
    exact List.nodup_append.mpr ⟨h, by simp, by rintro a ha b hb rfl; simp at hb; exact hn (hb ▸ ha)⟩

/-- A bit of a read that is not open is the bit the spec defines; an open one is the free word's. -/
theorem Block.getLsbD_readWord (b : Block) (free : Word) (r : Reg) (i : Nat) (hi : i < 16) :
    (b.readWord free r).getLsbD i =
      if (b.openBits r).getLsbD i then free.getLsbD i else (b.known r).getLsbD i := by
  simp only [Block.readWord, BitVec.getLsbD_or, BitVec.getLsbD_and, BitVec.getLsbD_not]
  cases (b.openBits r).getLsbD i <;> simp [hi]

/-- The word a procedure uses is the word read with the reserved bits masked off (R38). -/
theorem Block.usedWord_eq (b : Block) (free : Word) (r : Reg) :
    b.usedWord free r = b.readWord free r &&& ~~~ reservedBits r := by
  unfold Block.usedWord
  split
  · rename_i h
    apply word_ext
    intro i hi
    rw [BitVec.getLsbD_and, BitVec.getLsbD_and, Block.getLsbD_readWord b free r i hi, h, BitVec.getLsbD_not]
    cases (reservedBits r).getLsbD i <;> simp [hi]
  · rfl

/-- A bit of the next read that is not open is the defined bit. -/
theorem State.getLsbD_readWord (s : State) (r : Reg) (i : Nat) (hi : i < 16) (ho : (s.block.openBits r).getLsbD i = false) :
    (s.readWord r).getLsbD i = (s.block.known r).getLsbD i := by
  rw [State.readWord, Block.getLsbD_readWord _ _ _ _ hi, ho]; rfl

/-- A read of a register without open bits returns the defined word. -/
theorem State.readWord_closed (s : State) (r : Reg) (ho : s.block.openBits r = 0#16) : s.readWord r = s.block.known r := by
  apply word_ext; intro i hi
  exact State.getLsbD_readWord s r i hi (by rw [ho]; simp)

/-- A field of the next read without open bits is the defined field. -/
theorem State.readWord_field (s : State) (r : Reg) (lo n : Nat) (hn : lo + n ≤ 16) (ho : (s.block.openBits r).extractLsb' lo n = 0#n) :
    (s.readWord r).extractLsb' lo n = (s.block.known r).extractLsb' lo n := by
  apply BitVec.eq_of_getLsbD_eq; intro i hi
  have := congrArg (fun v => v.getLsbD i) ho
  simp [hi] at this
  simp only [BitVec.getLsbD_extractLsb', hi, decide_true, Bool.true_and]
  exact State.getLsbD_readWord s r _ (by omega) this

/-- The bit of a slot 1..16 in the first bitmap register (R41). -/
theorem Block.bitmap_lo (b : Block) (f : Obj → Bool) (n : Slot) (h : slotNumber n ≤ 16) :
    (b.bitmap .lo f).getLsbD (slotNumber n - 1) = f (b.obj n) := by
  unfold slotNumber at *
  rw [getLsbD_bitmap b .lo f _ (by omega) (by simp [Half.base])]
  simp [Half.base]

/-- The bit of a slot 17..32 in the second bitmap register (R41). -/
theorem Block.bitmap_hi (b : Block) (f : Obj → Bool) (n : Slot) (h : 17 ≤ slotNumber n) :
    (b.bitmap .hi f).getLsbD (slotNumber n - 17) = f (b.obj n) := by
  unfold slotNumber at *
  have := n.isLt
  rw [getLsbD_bitmap b .hi f _ (by omega) (by simp [Half.base]; omega)]
  congr 2; apply Fin.ext; simp [Half.base]; omega

/-- The search for the least pending slot finds it (R40). -/
theorem Block.leastPending_some (b : Block) : ∀ (fuel k : Nat) (n : Slot), (b.obj n).intpnd = true → k ≤ n.val → n.val < k + fuel →
    (∀ m : Slot, k ≤ m.val → m < n → (b.obj m).intpnd = false) → b.leastPending k fuel = some n
  | 0, k, n, _, h1, h2, _ => by omega
  | fuel + 1, k, n, hn, h1, h2, h => by
    rw [Block.leastPending]
    have hk : k < 32 := lt_of_le_of_lt h1 n.isLt
    rw [dif_pos hk]
    by_cases e : k = n.val
    · subst e; rw [if_pos (by exact hn)]
    · rw [if_neg, Block.leastPending_some b fuel (k+1) n hn (by omega) (by omega) (fun m hm hm' => h m (by omega) hm')]
      rw [h ⟨k, hk⟩ (le_refl _) (by show k < n.val; omega)]; simp

/-- It finds none where none is pending (R40). -/
theorem Block.leastPending_none (b : Block) (h : ∀ m : Slot, (b.obj m).intpnd = false) : ∀ (fuel k : Nat), b.leastPending k fuel = none
  | 0, k => rfl
  | fuel + 1, k => by
    rw [Block.leastPending]
    split
    · rw [h]; exact Block.leastPending_none b h fuel (k+1)
    · rfl

/-- What a stored write leaves unchanged (R141). -/
theorem Block.writeReg_frame {b b' : Block} {r : Reg} {v : Word} (h : b.writeReg r v = .stored b') :
    b'.objs = b.objs ∧ b'.ec = b.ec ∧ b'.statInt = b.statInt ∧
    (r ≠ .cntl → b'.cntl = b.cntl ∧ b'.initPending = b.initPending) ∧ (r ≠ .stat → b'.stat = b.stat) ∧ (r ≠ .bt → b'.bt = b.bt) ∧
    (r ≠ .clkdiv → b'.clkdiv = b.clkdiv) ∧ (r ≠ .test → b'.test = b.test) ∧
    (∀ k, (∀ x, r ≠ .iface k x) → b'.iface k = b.iface k) ∧
    (∀ k, r ≠ .iface k .cmdreq → (b'.iface k).busy = (b.iface k).busy) := by
  have iff_if : ∀ {c b''}, (∀ k, Block.iface { b with cntl := c, initPending := b'' } k = b.iface k) := fun k => by cases k <;> rfl
  cases r with
  | cntl => cases h; refine ⟨rfl, rfl, rfl, by simp, by intro; rfl, by intro; rfl, by intro; rfl, by intro; rfl, fun k _ => by cases k <;> rfl, fun k _ => by cases k <;> rfl⟩
  | stat => cases h; refine ⟨rfl, rfl, rfl, fun _ => ⟨rfl, rfl⟩, by simp, by intro; rfl, by intro; rfl, by intro; rfl, fun k _ => by cases k <;> rfl, fun k _ => by cases k <;> rfl⟩
  | bt =>
    simp only [Block.writeReg, Block.writeBt] at h
    split at h <;> cases h
    refine ⟨rfl, rfl, rfl, fun _ => ⟨rfl, rfl⟩, by intro; rfl, by simp, by intro; rfl, by intro; rfl, fun k _ => by cases k <;> rfl, fun k _ => by cases k <;> rfl⟩
  | clkdiv =>
    simp only [Block.writeReg, Block.writeClkdiv] at h
    split at h <;> cases h
    refine ⟨rfl, rfl, rfl, fun _ => ⟨rfl, rfl⟩, by intro; rfl, by intro; rfl, by simp, by intro; rfl, fun k _ => by cases k <;> rfl, fun k _ => by cases k <;> rfl⟩
  | test =>
    simp only [Block.writeReg, Block.writeTest] at h
    split at h
    · cases h
    · split at h <;> cases h
      refine ⟨rfl, rfl, rfl, fun _ => ⟨rfl, rfl⟩, by intro; rfl, by intro; rfl, by intro; rfl, by simp, fun k _ => by cases k <;> rfl, fun k _ => by cases k <;> rfl⟩
  | iface j x =>
    have : ∃ f, b' = b.setIface j f ∧ (x ≠ .cmdreq → f.busy = (b.iface j).busy) := by
      simp only [Block.writeReg, Block.writeIface] at h
      split at h
      · cases h
      · cases x <;> simp only at h
        · split at h <;> cases h
          exact ⟨_, rfl, fun h => absurd rfl h⟩
        all_goals (cases h; exact ⟨_, rfl, fun _ => rfl⟩)
    obtain ⟨f, rfl, hf⟩ := this
    refine ⟨by simp, by simp, by simp, by simp, by simp, by simp, by simp, by simp, ?_, ?_⟩
    · intro k hk; exact Block.iface_setIface_other _ (fun e => hk x (by rw [e])) f
    · intro k hk
      by_cases e : k = j
      · subst e; rw [Block.iface_setIface_same]; exact hf (fun e => hk (by rw [e]))
      · rw [Block.iface_setIface_other _ e]
  | _ => cases h; refine ⟨rfl, rfl, rfl, fun _ => ⟨rfl, rfl⟩, by intro; rfl, by intro; rfl, by intro; rfl, by intro; rfl, fun k _ => rfl, fun k _ => rfl⟩

end Sys2Proof.Machine
end

