-- ==== Sys2Proof/Laws/BitTiming.lean ====
section
/-! SUPPORT. What the two searches of bt_calc find (R120, R122), and the bounds of the segment table (R124). -/

namespace Sys2Proof.Machine

/-- What the inner search answers. -/
theorem searchSegments_eq (bw p : Nat) : ∀ (n : Nat), ∀ r, searchSegments bw p n = r →
    (∀ x, r = some x → 1 ≤ x ∧ x ≤ n ∧ (x + 3) * (p + 1) = bw) ∧ (r = none → ∀ x, 1 ≤ x → x ≤ n → (x + 3) * (p + 1) ≠ bw) := by
  intro n
  induction n with
  | zero => intro r h; subst h; simp [searchSegments]; intro x h1 h2; omega
  | succ n ih =>
    intro r h
    rw [searchSegments] at h
    split at h
    · rename_i he; subst h; refine ⟨fun x hx => ?_, by simp⟩; cases hx; exact ⟨by omega, by omega, he⟩
    · rename_i he
      obtain ⟨h1, h2⟩ := ih r h
      refine ⟨fun x hx => ?_, fun hr x hx1 hx2 => ?_⟩
      · obtain ⟨a, b, c⟩ := h1 x hx; exact ⟨a, by omega, c⟩
      · by_cases e : x = n + 1
        · subst e; exact he
        · exact h2 hr x hx1 (by omega)

/-- The inner search finds exactly the solution, if there is one. -/
theorem segments_iff {bw p x : Nat} : searchSegments bw p 22 = some x ↔ (1 ≤ x ∧ x ≤ 22 ∧ (x + 3) * (p + 1) = bw) := by
  obtain ⟨h1, h2⟩ := searchSegments_eq bw p 22 _ rfl
  constructor
  · exact h1 x
  · rintro ⟨a, b, c⟩
    cases hs : searchSegments bw p 22 with
    | none => exact absurd c (h2 hs x a b)
    | some y =>
      obtain ⟨_, _, d⟩ := h1 y hs
      have : (x + 3) = y + 3 := Nat.eq_of_mul_eq_mul_right (show 0 < p + 1 by omega) (by rw [c, d])
      congr 1; omega

/-- The outer search finds the least prescaler with a solution. -/
theorem prescaler_some {bw : Nat} : ∀ (n p q x : Nat), searchPrescaler bw p n = some (q, x) ↔
    p ≤ q ∧ q < p + n ∧ searchSegments bw q 22 = some x ∧ ∀ r, p ≤ r → r < q → searchSegments bw r 22 = none := by
  intro n
  induction n with
  | zero => intro p q x; simp [searchPrescaler]; omega
  | succ n ih =>
    intro p q x
    rw [searchPrescaler]
    cases hs : searchSegments bw p 22 with
    | some y =>
      constructor
      · intro h; cases h; exact ⟨by omega, by omega, hs, fun r h1 h2 => by omega⟩
      · rintro ⟨h1, h2, h3, h4⟩
        by_cases e : p = q
        · subst e; rw [hs] at h3; cases h3; rfl
        · have := h4 p (by omega) (by omega); rw [hs] at this; cases this
    | none =>
      simp only
      rw [ih]
      constructor
      · rintro ⟨h1, h2, h3, h4⟩
        refine ⟨by omega, by omega, h3, fun r hr1 hr2 => ?_⟩
        by_cases e : r = p
        · subst e; exact hs
        · exact h4 r (by omega) hr2
      · rintro ⟨h1, h2, h3, h4⟩
        have : p ≠ q := by rintro rfl; rw [hs] at h3; cases h3
        exact ⟨by omega, by omega, h3, fun r hr1 hr2 => h4 r (by omega) hr2⟩

/-- It finds none exactly when no prescaler has one. -/
theorem prescaler_none {bw : Nat} : ∀ (n p : Nat), searchPrescaler bw p n = none ↔ ∀ r, p ≤ r → r < p + n → searchSegments bw r 22 = none := by
  intro n
  induction n with
  | zero => intro p; simp [searchPrescaler]; intro r h1 h2; omega
  | succ n ih =>
    intro p
    rw [searchPrescaler]
    cases hs : searchSegments bw p 22 with
    | some y => simp; exact ⟨p, by omega, by omega, by rw [hs]; simp⟩
    | none =>
      simp only
      rw [ih]
      constructor
      · intro h r h1 h2
        by_cases e : r = p
        · subst e; exact hs
        · exact h r (by omega) (by omega)
      · intro h r h1 h2; exact h r (by omega) (by omega)

/-- A prescaler has a solution exactly when it divides the bit period into 4 to 25 quanta. -/
theorem segments_fits {bw p : Nat} : (∃ x, searchSegments bw p 22 = some x) ↔ (p + 1) ∣ bw ∧ 4 ≤ bw / (p + 1) ∧ bw / (p + 1) ≤ 25 := by
  constructor
  · rintro ⟨x, hx⟩
    obtain ⟨a, b, c⟩ := segments_iff.1 hx
    have : bw / (p + 1) = x + 3 := by rw [← c]; exact Nat.mul_div_cancel _ (by omega)
    exact ⟨⟨x + 3, by rw [← c, Nat.mul_comm]⟩, by omega, by omega⟩
  · rintro ⟨⟨y, rfl⟩, a, b⟩
    rw [Nat.mul_div_cancel_left _ (by omega)] at a b
    exact ⟨y - 3, segments_iff.2 ⟨by omega, by omega, by rw [Nat.mul_comm]; congr 1; omega⟩⟩

/-- Each row of the segment table splits its count within the field widths (R124). -/
theorem tsegTable_bounds {x : Nat} (h1 : 1 ≤ x) (h2 : x ≤ 22) :
    (tsegTable x).1 + (tsegTable x).2 = x ∧ 1 ≤ (tsegTable x).1 ∧ (tsegTable x).1 ≤ 15 ∧ (tsegTable x).2 ≤ 7 := by
  interval_cases x <;> decide

/-- A timing word as a number (R127). -/
theorem toNat_timing (p x rjw : Nat) (hp : p ≤ 63) (hr : rjw ≤ 3) (h1 : 1 ≤ x) (h2 : x ≤ 22) :
    (BitVec.ofNat 32 (timingValue p x rjw)).toNat = (tsegTable x).2 * 4096 + (tsegTable x).1 * 256 + rjw * 64 + p := by
  obtain ⟨_, _, h3, h4⟩ := tsegTable_bounds h1 h2
  simp only [timingValue, clkdivValue, BitVec.toNat_ofNat]; omega

end Sys2Proof.Machine
end

