-- ==== Sys2Proof/Laws/Encoding.lean ====
section
/-! SUPPORT. Lemmas of the encoder and the decoder (30_encoding.md): the offset table, the rows of a register, and the words. -/

namespace Sys2Proof

open Sys2Proof.Machine

/-- Looking a register up at its own offset finds it (R70). -/
theorem regAtOffset_regOffset (r : Reg) : regAtOffset (regOffset r) = some r := by
  cases r with
  | iface k x => cases k <;> cases x <;> decide
  | txreq h => cases h <;> decide
  | nd h => cases h <;> decide
  | ir h => cases h <;> decide
  | msgv h => cases h <;> decide
  | _ => decide

/-- At an offset that is no register nothing is found. -/
theorem regAtOffset_none {off : Nat} (h : ∀ r, regOffset r ≠ off) : regAtOffset off = none := by
  rw [regAtOffset, List.find?_eq_none]
  intro r _
  simpa using h r

/-- A register has no write row exactly when it is read-only (R76). -/
theorem writeOp_eq_none (r : Reg) (v : Word) : writeOp r v = none ↔ Safety.readOnly r = true := by
  cases r with
  | iface k x => cases k <;> cases x <;> simp [writeOp, Safety.readOnly]
  | _ => simp [writeOp, Safety.readOnly]

/-- The offset table lists every register (R70). -/
theorem mem_allRegs (r : Reg) : r ∈ allRegs := by
  cases r with
  | iface k x => cases k <;> cases x <;> decide
  | txreq h => cases h <;> decide
  | nd h => cases h <;> decide
  | ir h => cases h <;> decide
  | msgv h => cases h <;> decide
  | _ => decide

/-- No two registers share an offset (R70). -/
theorem regOffset_inj {r q : Reg} (h : regOffset r = regOffset q) : r = q := by
  have := regAtOffset_regOffset r
  rw [h, regAtOffset_regOffset q] at this
  exact (Option.some.inj this).symm

/-- Every offset fits the field OFF (R92). -/
theorem regOffset_lt (r : Reg) : regOffset r < 4096 := by
  cases r with
  | iface k x => cases k <;> cases x <;> decide
  | txreq h => cases h <;> decide
  | nd h => cases h <;> decide
  | ir h => cases h <;> decide
  | msgv h => cases h <;> decide
  | _ => decide

/-- The row that reads a register is the only one. -/
theorem busOp_rd {i : Instr} {r : Reg} (h : busOp i = some (.rd r)) : readOp r = i := by
  cases i <;> simp [busOp] at h <;> subst h <;> rfl

/-- The row that writes a value to a register is the only one. -/
theorem busOp_wr {i : Instr} {r : Reg} {v : Word} (h : busOp i = some (.wr r v)) : writeOp r v = some i := by
  cases i <;> simp [busOp] at h <;> obtain ⟨rfl, rfl⟩ := h <;> rfl

/-- A read row is a bus read of its register. -/
theorem busOp_readOp (r : Reg) : busOp (readOp r) = some (.rd r) := by
  cases r with
  | iface k x => cases k <;> cases x <;> rfl
  | txreq h => cases h <;> rfl
  | nd h => cases h <;> rfl
  | ir h => cases h <;> rfl
  | msgv h => cases h <;> rfl
  | _ => rfl

/-- A write row is a bus write of its register. -/
theorem busOp_writeOp {r : Reg} {v : Word} {i : Instr} (h : writeOp r v = some i) : busOp i = some (.wr r v) := by
  cases r with
  | iface k x => cases k <;> cases x <;> (cases h; rfl)
  | _ => first | (cases h; done) | (cases h; rfl)

/-- What a word with Z = 0 and the offset of a register decodes to (R93). -/
theorem decodeBus_of (t : BitVec 32) (r : Reg) (hz : t.extractLsb' 28 3 = 0#3) (ho : (t.extractLsb' 16 12).toNat = regOffset r) :
    decodeBus t = if t.getLsbD 31 then (match writeOp r (t.extractLsb' 0 16) with | some i => .instr i | none => .rejected (.roWrite r)) else .instr (readOp r) := by
  simp only [decodeBus, hz, decodeAt, ho, regAtOffset_regOffset]
  cases t.getLsbD 31
  · simp
  · cases writeOp r (t.extractLsb' 0 16) <;> simp

/-- The encoding of a BUS row (R92). -/
theorem encode_busOp {i : Instr} {op : BusOp} (h : busOp i = some op) : encode i = some (.bus (busWord op)) := by
  unfold encode; simp only [h]

/-- A read word decodes to its read. -/
theorem decodeBus_rd (r : Reg) : decodeBus (busWord (.rd r)) = .instr (readOp r) := by
  have h := regOffset_lt r
  rw [decodeBus_of _ r, if_neg]
  · simp only [busWord, BitVec.getLsbD_ofNat, Nat.testBit_eq_decide_div_mod_eq]; simp; omega
  · apply BitVec.eq_of_toNat_eq; simp only [busWord, BitVec.extractLsb'_toNat, BitVec.toNat_ofNat, Nat.shiftRight_eq_div_pow]; omega
  · simp only [busWord, BitVec.extractLsb'_toNat, BitVec.toNat_ofNat, Nat.shiftRight_eq_div_pow]; omega

/-- A write word decodes to its write. -/
theorem decodeBus_wr (r : Reg) (v : Word) (i : Instr) (hi : writeOp r v = some i) : decodeBus (busWord (.wr r v)) = .instr i := by
  have h := regOffset_lt r
  have hv := v.isLt
  have : (busWord (.wr r v)).extractLsb' 0 16 = v := by
    apply BitVec.eq_of_toNat_eq; simp only [busWord, BitVec.extractLsb'_toNat, BitVec.toNat_ofNat, Nat.shiftRight_eq_div_pow]; omega
  rw [decodeBus_of _ r, if_pos, this, hi]
  · simp only [busWord, BitVec.getLsbD_ofNat, Nat.testBit_eq_decide_div_mod_eq]; simp; omega
  · apply BitVec.eq_of_toNat_eq; simp only [busWord, BitVec.extractLsb'_toNat, BitVec.toNat_ofNat, Nat.shiftRight_eq_div_pow]; omega
  · simp only [busWord, BitVec.extractLsb'_toNat, BitVec.toNat_ofNat, Nat.shiftRight_eq_div_pow]; omega

/-- The part selects are read back from the command word that holds them, and so is its direction bit (R94). -/
theorem partsOf_partsValue (p : Parts) (d : Bool) : partsOf (BitVec.ofNat 8 ((if d then 128 else 0) + partsValue p)) = p ∧ (BitVec.ofNat 8 ((if d then 128 else 0) + partsValue p)).getLsbD 7 = d := by
  obtain ⟨a,b,c,e,f,g,h⟩ := p
  revert a b c e f g h d
  decide

end Sys2Proof
end

