-- ==== Sys2Proof/Laws/Contexts.lean ====
section
/-! SUPPORT. The two host contexts (R10, R271): what a dispatch in progress leaves of HOST_MAIN, and the step of one turn. -/

namespace Sys2Proof.Machine

/-- A step with a turn in the schedule takes that turn (R9). -/
theorem turn_step {s : State} {t : Turn} {ts : List Turn} (hr : s.refused = none) (h : s.turns = t :: ts) :
    step s = takeTurn t { s with turns := ts } := by
  simp [step, hr, State.schedule, h, State.turnTaken, State.withTurns]

/-- A BUS row is a bus transaction of its register. -/
theorem exec_busOp {i : Instr} {op : BusOp} (h : busOp i = some op) (s : State) :
    exec i s = match op with | .rd r => busRead r s | .wr r v => busWrite r v s := by
  cases op with
  | rd r => have := busOp_rd h; subst this; exact exec_readOp r s
  | wr r v => exact exec_writeOp (busOp_wr h) s

/-- HOST_IRQ runs while it has a call (R271). -/
theorem running_irq {s : State} : s.running = .irq ↔ s.irq.calls ≠ [] := by
  unfold State.running; cases s.irq.calls <;> simp

/-- HOST_MAIN's context and program are the same in both states. -/
def KeepsMain (s s' : State) : Prop := s'.main = s.main ∧ s'.program = s.program

/-- A call begun by HOST_IRQ leaves HOST_MAIN where it is (R10). -/
theorem startInstr_keepsMain (i : Instr) (s : State) (h : s.running = .irq) : KeepsMain s (startInstr i s) := by
  have hr : ∀ m, KeepsMain s (s.refuse m) := fun m => ⟨rfl, rfl⟩
  have hc : ∀ r, KeepsMain s (s.returnCall r) := fun r => ⟨by simp [State.returnCall, h], by simp⟩
  have hp : ∀ l, KeepsMain s (s.startPlan l) := fun l => by
    unfold State.startPlan; exact ⟨by simp [State.beginCall, State.continueCall, h], by simp⟩
  unfold startInstr
  cases ho : busOp i with
  | some op => cases op <;> exact hp _
  | none =>
    cases i <;> first
      | exact ⟨rfl, rfl⟩
      | exact hp _
      | exact hc _
      | (simp only [startBtcalc, startReceive]; split <;> first | exact hr _ | exact hc _ | exact hp _)
      | (simp only [startPackFilter, startPackTx, startSend]; split <;> first | exact hr _ | exact hc _ | exact hp _)
      | (simp only [startSetBitrate]; split <;> first | exact hc _ | exact hp _)
      | (simp only [startInstallFilter]; split
         · exact hr _
         · split
           · exact hr _
           · exact hp _)
      | (simp only [startIrqEnableClass]; exact ⟨by simp [State.returnCall, State.running] at *; simp [h], by simp⟩)

/-- An action of HOST_IRQ leaves HOST_MAIN where it is (R10). -/
theorem micro_keepsMain (s : State) (m : Micro) (todo : List Micro) (rest : List Activation) (h : s.running = .irq) :
    KeepsMain s (s.micro .irq m todo rest) := by
  cases m with
  | rd | rdWide | spinBusy | spinInit =>
    simp only [State.micro]; split
    · exact ⟨by simp [State.continueCall, State.hostRead, State.hostReadWide, State.returnRead, h], by simp⟩
    · exact ⟨rfl, rfl⟩
  | wr r v =>
    simp only [State.micro]; split
    · exact ⟨by simp [State.continueCall], by simp⟩
    · exact ⟨rfl, rfl⟩
  | callback e arg cls =>
    simp only [State.micro, State.callBack]
    split
    · exact ⟨by simp [State.continueCall], by simp⟩
    · split
      · exact ⟨by simp, by simp⟩
      · exact ⟨by simp [State.continueCall], by simp⟩
  | _ => exact ⟨by simp [State.micro, State.continueCall], by simp [State.micro]⟩

/-- An operation of a callback in HOST_IRQ leaves HOST_MAIN where it is (R10). -/
theorem callbackStep_keepsMain (s : State) (ops : List HostOp) (rest : List Activation) : KeepsMain s (s.callbackStep .irq ops rest) := by
  unfold State.callbackStep
  split
  · exact ⟨by simp [State.endCallback], by simp⟩
  · split
    · exact ⟨rfl, rfl⟩
    · exact ⟨rfl, rfl⟩
    · exact ⟨by simp [State.beginCall, State.continueCall], by simp⟩
    · rename_i ops _ i _
      have h := startInstr_keepsMain i (s.callbackLeft .irq ops rest) (running_irq.2 (by simp [State.callbackLeft, State.setCtx]))
      exact ⟨by rw [h.1]; simp, by rw [h.2]; simp⟩
    · exact ⟨rfl, rfl⟩
    · exact ⟨by simp, by simp⟩
    · exact ⟨rfl, rfl⟩

end Sys2Proof.Machine
end

