-- ==== Sys2Proof/Laws/Engine.lean ====
section
/-! SUPPORT. What the acceptance predicate says (R197), when the protocol engine may store a frame (R266), and what the interrupt line is worth (R40, R270). -/

namespace Sys2Proof.Machine

/-- The acceptance predicate, bit by bit (R197). -/
theorem accepts_iff (o : Obj) (f : Frame) : o.accepts f = true ↔
      o.msgval = true ∧ o.dir = false ∧
      (∀ i, i < 29 → (f.fmt = .std → 18 ≤ i) → (o.umask = true → o.msk.getLsbD i = true) →
        o.id.getLsbD i = if f.fmt = .ext then f.id.testBit i else f.id.testBit (i - 18)) ∧
      ((o.umask = true ∧ o.mxtd = false) ∨ o.xtd = decide (f.fmt = .ext)) := by
  have hbit : ∀ i, i < 29 → ((o.id ^^^ frameIdent f) &&& (if o.umask then o.msk else 0x1FFFFFFF#29) &&& usedIdent f.fmt).getLsbD i =
      ((o.id.getLsbD i ^^ (if f.fmt = .ext then f.id.testBit i else (decide (18 ≤ i) && f.id.testBit (i - 18)))) && (!o.umask || o.msk.getLsbD i) && (decide (f.fmt = .ext) || decide (18 ≤ i))) := by
    intro i hi
    rw [BitVec.getLsbD_and, BitVec.getLsbD_and, BitVec.getLsbD_xor]
    have h1 : (if o.umask then o.msk else 0x1FFFFFFF#29).getLsbD i = (!o.umask || o.msk.getLsbD i) := by
      cases o.umask
      · have : (0x1FFFFFFF#29).getLsbD i = true := by interval_cases i <;> rfl
        simpa using this
      · simp
    have h2 : (usedIdent f.fmt).getLsbD i = (decide (f.fmt = .ext) || decide (18 ≤ i)) := by
      cases f.fmt
      · show (0x1FFC0000#29).getLsbD i = _; interval_cases i <;> rfl
      · show (0x1FFFFFFF#29).getLsbD i = _; interval_cases i <;> rfl
    have h3 : (frameIdent f).getLsbD i = if f.fmt = .ext then f.id.testBit i else (decide (18 ≤ i) && f.id.testBit (i - 18)) := by
      unfold frameIdent
      cases hf : f.fmt with
      | ext => rw [if_pos rfl]; simp only [BitVec.getLsbD_ofNat, hi, decide_true, Bool.true_and]
      | std => 
        simp only [field, BitVec.getLsbD_shiftLeft, BitVec.getLsbD_setWidth, BitVec.getLsbD_ofNat, hi]
        by_cases h : 18 ≤ i
        · have : i - 18 < 11 := by omega
          have : i - 18 < 29 := by omega
          simp [*]
        · simp [h]
    rw [h1, h2, h3]
  unfold Obj.accepts
  simp only [Bool.and_eq_true, Bool.not_eq_true', Bool.or_eq_true, beq_iff_eq]
  constructor
  · rintro ⟨⟨⟨h1, h2⟩, h3⟩, h4⟩
    refine ⟨h1, h2, fun i hi hs hm => ?_, h4.imp id (fun h => by rw [h]; cases f.fmt <;> rfl)⟩
    have := hbit i hi
    rw [h3] at this
    simp only [BitVec.getLsbD_zero] at this
    have hu : (!o.umask || o.msk.getLsbD i) = true := by
      cases hh : o.umask with
      | false => rfl
      | true => rw [hm hh]; rfl
    have hv : (decide (f.fmt = .ext) || decide (18 ≤ i)) = true := by
      cases hh : f.fmt with
      | ext => rfl
      | std => simp [hs hh]
    rw [hu, hv] at this
    cases hf : f.fmt with
    | ext => simp [hf] at this; simpa using this
    | std => simp [hf, hs hf] at this; simpa using this
  · rintro ⟨h1, h2, h3, h4⟩
    refine ⟨⟨⟨h1, h2⟩, ?_⟩, h4.imp id (fun h => by rw [h]; cases f.fmt <;> rfl)⟩
    apply BitVec.eq_of_getLsbD_eq
    intro i hi
    rw [hbit i hi, BitVec.getLsbD_zero]
    by_cases hm : (o.umask = true → o.msk.getLsbD i = true)
    · by_cases hs : (f.fmt = .std → 18 ≤ i)
      · rw [h3 i hi hs hm]
        cases hf : f.fmt with
        | ext => simp
        | std => simp [hs hf]
      · have : f.fmt = .std ∧ ¬ 18 ≤ i := by tauto
        simp [this.1]; omega
    · have : o.umask = true ∧ o.msk.getLsbD i = false := by
        cases h : o.umask with
        | false => exact absurd (fun e => by rw [h] at e; cases e) hm
        | true => cases h' : o.msk.getLsbD i with
          | false => exact ⟨rfl, rfl⟩
          | true => exact absurd (fun _ => h') hm
      simp [this.1, -BitVec.getLsbD_eq_getElem, this.2]

/-- pe_rx_store's condition, spelled out (R266). -/
theorem mayStore_iff (b : Block) (strict : Bool) (n : Slot) (f : Frame) : b.mayStore strict n f = true ↔
  ((b.cntl.init || b.initPending) = false ∧ (b.obj n).msgval = true ∧ (b.obj n).dir = false ∧ f.len ≤ 15 ∧
        (strict = true → (b.obj n).accepts f = true ∧ (∀ m : Slot, m < n → (b.obj m).accepts f = false) ∧ f.type = .data)) := by
  have hl : ∀ (fuel k : Nat), k + fuel = 32 → k ≤ n.val → (∀ m : Slot, m.val < k → (b.obj m).accepts f = false) → 
      (b.leastAccepting f k fuel = some n ↔ (b.obj n).accepts f = true ∧ (∀ m : Slot, m < n → (b.obj m).accepts f = false)) := by
    intro fuel
    induction fuel with
    | zero => intro k hk hn; have := n.isLt; omega
    | succ fuel ih =>
      intro k hk hkn hlow
      have hk' : k < 32 := by omega
      rw [Block.leastAccepting, dif_pos hk']
      by_cases ha : (b.obj ⟨k, hk'⟩).accepts f = true
      · rw [if_pos ha]
        constructor
        · intro h; cases h; exact ⟨ha, fun m hm => hlow m hm⟩
        · rintro ⟨h1, h2⟩
          by_cases hkn' : k = n.val
          · congr 1; exact Fin.ext hkn'
          · have := h2 ⟨k, hk'⟩ (by show k < n.val; omega); rw [this] at ha; cases ha
      · rw [if_neg ha]
        simp only [Bool.not_eq_true] at ha
        by_cases hkn' : k = n.val
        · constructor
          · intro h
            exfalso
            have : ∀ (fuel j : Nat), n.val < j → b.leastAccepting f j fuel ≠ some n := by
              intro fuel
              induction fuel with
              | zero => intro j _; simp [Block.leastAccepting]
              | succ fuel ih =>
                intro j hj
                rw [Block.leastAccepting]
                split
                · split
                  · intro h; cases h; simp at hj
                  · exact ih _ (by omega)
                · simp
            exact this _ _ (by omega) h
          · rintro ⟨h1, _⟩; exfalso
            have : (⟨k, hk'⟩ : Slot) = n := Fin.ext hkn'
            rw [this, h1] at ha; cases ha
        · apply ih (k+1) (by omega) (by omega)
          intro m hm
          by_cases hm' : m.val = k
          · rw [show m = ⟨k, hk'⟩ from Fin.ext hm']; exact ha
          · exact hlow m (by omega)
  have := hl 32 0 rfl (by omega) (by intro m hm; omega)
  unfold Block.mayStore busFrame Block.onBus Block.initReads
  simp only [Bool.and_eq_true, Bool.not_eq_true', Bool.or_eq_true, decide_eq_true_eq, beq_iff_eq, this]
  cases strict <;> simp <;> tauto

/-- INT reads other than 0 exactly when a status change is latched or an object has INTPND (R40). -/
theorem intWord_ne (b : Block) : (b.intWord != 0#16) = true ↔ b.statInt = true ∨ ∃ n, (b.obj n).intpnd = true := by
  have hex : ∀ (fuel k : Nat), k + fuel = 32 → (∀ n, b.leastPending k fuel = some n → (b.obj n).intpnd = true) := by
    intro fuel
    induction fuel with
    | zero => intro k _ n h; simp [Block.leastPending] at h
    | succ fuel ih =>
      intro k hk n h
      rw [Block.leastPending, dif_pos (by omega)] at h
      split at h
      · cases h; assumption
      · exact ih (k+1) (by omega) n h
  have hnone : ∀ (fuel k : Nat), k + fuel = 32 → b.leastPending k fuel = none → ∀ m : Slot, k ≤ m.val → (b.obj m).intpnd = false := by
    intro fuel
    induction fuel with
    | zero => intro k _ _ m hm; have := m.isLt; omega
    | succ fuel ih =>
      intro k hk h m hm
      rw [Block.leastPending, dif_pos (by omega)] at h
      split at h
      · cases h
      · rename_i hk0
        simp only [Bool.not_eq_true] at hk0
        by_cases e : k = m.val
        · have : m = ⟨k, by omega⟩ := Fin.ext e.symm
          rw [this]; exact hk0
        · exact ih (k+1) (by omega) h m (by omega)
  unfold Block.intWord
  cases hs : b.statInt with
  | true => simp
  | false =>
    simp only [Bool.false_eq_true, if_false, false_or]
    cases hl : b.leastPending 0 32 with
    | some n =>
      have := hex 32 0 rfl n hl
      constructor
      · intro _; exact ⟨n, this⟩
      · intro _
        have hlt := n.isLt
        simp only [bne_iff_ne, ne_eq]
        intro e
        have := congrArg BitVec.toNat e
        simp [slotNumber] at this; omega
    | none =>
      have := hnone 32 0 rfl hl
      simp only [bne_self_eq_false, Bool.false_eq_true, false_iff]
      rintro ⟨n, hn⟩
      rw [this n (by omega)] at hn; cases hn

end Sys2Proof.Machine
end

