-- ==== Sys2Proof/Laws/Moves.lean ====
section
/-! SUPPORT. Everything the machine can do to the block, the reset input, the recorded faults and the parameters, said once: each step
is a chain of moves, and a move is one of nine kinds. Whole-machine claims follow by one case for each kind. -/

namespace Sys2Proof.Machine

/-- One move from s to s' by the agent of turn t, as far as the block, rst, faults, params and program go. -/
inductive State.Moves (s : State) : Turn → State → Prop where
  /-- The block is not touched. -/
  | same (t : Turn) (s' : State) (hb : s'.block = s.block) (hr : s'.rst = s.rst) (hf : s'.faults = s.faults)
      (hp : s'.params = s.params) : s.Moves t s'
  /-- A read of a register. -/
  | read (r : Reg) (s' : State) (ha : s.admitted = true) (hb : s'.block = s.block.afterRead r) (hr : s'.rst = s.rst)
      (hf : s'.faults = s.faults) (hp : s'.params = s.params) : s.Moves .host s'
  /-- A write that is stored. -/
  | stored (r : Reg) (v : Word) (s' : State) (ha : s.admitted = true) (hb : s.block.writeReg r v = .stored s'.block)
      (hr : s'.rst = s.rst) (hf : s'.faults = s.faults) (hp : s'.params = s.params) : s.Moves .host s'
  /-- A write that is a fault. -/
  | fault (r : Reg) (v : Word) (f : BusFault) (s' : State) (ha : s.admitted = true) (hw : s.block.writeReg r v = .fault f)
      (hb : s'.block = s.block) (hr : s'.rst = s.rst) (hf : s'.faults = (s.recordFault f).faults) (hp : s'.params = s.params) :
      s.Moves .host s'
  /-- Reset is asserted. -/
  | reset (n : Nat) (s' : State) (hb : s'.block = Block.afterReset (Config.freeBlock n)) (hr : s'.rst = true)
      (hf : s'.faults = s.faults) (hp : s'.params = s.params) : s.Moves .host s'
  /-- Reset is released. -/
  | release (s' : State) (hb : s'.block = s.block) (hr : s'.rst = false) (hf : s'.faults = s.faults)
      (hp : s'.params = s.params) : s.Moves .host s'
  /-- A write transfer completes. -/
  | writeTransfer (k : IfId) (p : Parts) (s' : State) (ha : s.xferEnabled k = true) (hb : s'.block = s.block.writeTransfer k p)
      (hr : s'.rst = s.rst) (hf : s'.faults = s.faults) (hp : s'.params = s.params) : s.Moves (.xfer k) s'
  /-- A read transfer completes. -/
  | readTransfer (k : IfId) (p : Parts) (s' : State) (ha : s.xferEnabled k = true) (hb : s'.block = s.block.readTransfer k p)
      (hr : s'.rst = s.rst) (hf : s'.faults = s.faults) (hp : s'.params = s.params) : s.Moves (.xfer k) s'
  /-- The protocol engine steps. -/
  | engine (e : PeEvent) (s' : State) (ha : s.admitted = true) (he : s.block.peEnabled s.params.peStrict e = true)
      (hb : s'.block = s.block.peEffect s.params.peStrict e) (hr : s'.rst = s.rst) (hf : s'.faults = s.faults)
      (hp : s'.params = s.params) : s.Moves (.pe e) s'

/-- A state with the same block, reset input, faults and parameters. -/
def State.Alike (s s' : State) : Prop :=
  s'.block = s.block ∧ s'.rst = s.rst ∧ s'.faults = s.faults ∧ s'.params = s.params ∧ s'.clkEn = s.clkEn

theorem State.Alike.moves {s s' : State} (h : s.Alike s') (t : Turn) : s.Moves t s' := .same t s' h.1 h.2.1 h.2.2.1 h.2.2.2.1

/-- The beginning of a call touches no block state. -/
theorem startInstr_alike (i : Instr) (s : State) : s.Alike (startInstr i s) := by
  have hr : ∀ m, s.Alike (s.refuse m) := fun m => ⟨rfl, rfl, rfl, rfl, rfl⟩
  have hc : ∀ r, s.Alike (s.returnCall r) := fun r => ⟨by simp, by simp, by simp, by simp, by simp⟩
  have hp : ∀ l, s.Alike (s.startPlan l) := fun l => by
    unfold State.startPlan; exact ⟨by simp, by simp, by simp, by simp, by simp⟩
  unfold startInstr
  cases ho : busOp i with
  | some op => cases op <;> exact hp _
  | none =>
    cases i <;> first
      | exact ⟨rfl, rfl, rfl, rfl, rfl⟩
      | exact hp _
      | exact hc _
      | (simp only [startBtcalc, startReceive]; split <;> first | exact hr _ | exact hc _ | exact hp _)
      | (simp only [startPackFilter, startPackTx, startSend]; split <;> first | exact hr _ | exact hc _ | exact hp _)
      | (simp only [startSetBitrate]; split <;> first | exact hc _ | exact hp _)
      | (simp only [startInstallFilter]; split
         · exact hr _
         · split
           · exact hr _
           · exact hp _)
      | (simp only [startIrqEnableClass]; exact ⟨by simp, by simp, by simp, by simp, by simp⟩)

/-- What one action of a procedure does. -/
theorem State.micro_moves (s : State) (c : CtxId) (m : Micro) (todo : List Micro) (rest : List Activation) :
    s.Moves .host (s.micro c m todo rest) := by
  have hsame : s.Moves .host s := .same _ _ rfl rfl rfl rfl
  cases m with
  | rd r k =>
    simp only [State.micro]; split
    · rename_i h; exact .read r _ h (by simp) (by simp) (by simp) (by simp)
    · exact hsame
  | rdWide r =>
    simp only [State.micro]; split
    · rename_i h; exact .read r _ h (by simp) (by simp) (by simp) (by simp)
    · exact hsame
  | wr r v =>
    simp only [State.micro]; split
    · rename_i h
      cases hw : s.block.writeReg r v with
      | stored b => exact .stored r v _ h (by simp [State.hostWrite, hw]) (by simp) (by simp [State.hostWrite, hw]) (by simp)
      | fault f => exact .fault r v f _ h hw (by simp [State.hostWrite, hw]) (by simp) (by simp [State.hostWrite, hw]) (by simp)
    · exact hsame
  | spinBusy k i =>
    simp only [State.micro]; split
    · rename_i h; exact .read (.iface k .cmdreq) _ h (by simp) (by simp) (by simp) (by simp)
    · exact hsame
  | spinInit i b =>
    simp only [State.micro]; split
    · rename_i h; exact .read .cntl _ h (by simp) (by simp) (by simp) (by simp)
    · exact hsame
  | envClock b => exact .same _ _ (by simp [State.micro]) (by simp [State.micro]) (by simp [State.micro]) (by simp [State.micro])
  | envReset b =>
    cases b with
    | true =>
      exact .reset s.fresh _ (by simp [State.micro, State.envReset]) (by simp [State.micro, State.envReset])
        (by simp [State.micro]) (by simp [State.micro])
    | false =>
      exact .release _ (by simp [State.micro, State.envReset]) (by simp [State.micro, State.envReset])
        (by simp [State.micro]) (by simp [State.micro])
  | route x y => exact .same _ _ (by simp [State.micro]) (by simp [State.micro]) (by simp [State.micro]) (by simp [State.micro])
  | setReg r => exact .same _ _ (by simp [State.micro]) (by simp [State.micro]) (by simp [State.micro]) (by simp [State.micro])
  | hostIe b => exact .same _ _ (by simp [State.micro]) (by simp [State.micro]) (by simp [State.micro]) (by simp [State.micro])
  | callback e arg cls =>
    simp only [State.micro, State.callBack]
    split
    · exact .same _ _ (by simp) (by simp) (by simp) (by simp)
    · split
      · exact .same _ _ (by simp) (by simp) (by simp) (by simp)
      · exact .same _ _ (by simp) (by simp) (by simp) (by simp)
  | ret r => exact .same _ _ (by simp [State.micro]) (by simp [State.micro]) (by simp [State.micro]) (by simp [State.micro])

/-- What an environment action on the reset input does (R300). -/
theorem State.envReset_moves (s : State) (b : Bool) : s.Moves .host (s.envReset b) := by
  cases b with
  | true => exact .reset s.fresh _ rfl rfl rfl rfl
  | false => exact .release _ rfl rfl rfl rfl

/-- A move from a state alike is a move. -/
theorem State.Moves.of_alike {s u s' : State} {t : Turn} (hb : u.block = s.block) (hr : u.rst = s.rst) (hf : u.faults = s.faults)
    (hp : u.params = s.params) (hc : u.clkEn = s.clkEn) (h : u.Moves t s') : s.Moves t s' := by
  have ha : u.admitted = s.admitted := by simp [State.admitted, hc, hr]
  have hx : ∀ k, u.xferEnabled k = s.xferEnabled k := fun k => by simp [State.xferEnabled, ha, hb]
  cases h with
  | same _ _ h1 h2 h3 h4 => exact .same _ _ (h1.trans hb) (h2.trans hr) (h3.trans hf) (h4.trans hp)
  | read r _ h0 h1 h2 h3 h4 => exact .read r _ (ha ▸ h0) (hb ▸ h1) (h2.trans hr) (h3.trans hf) (h4.trans hp)
  | stored r v _ h0 h1 h2 h3 h4 => exact .stored r v _ (ha ▸ h0) (hb ▸ h1) (h2.trans hr) (h3.trans hf) (h4.trans hp)
  | fault r v f _ h0 h1 h2 h3 h4 h5 =>
    exact .fault r v f _ (ha ▸ h0) (hb ▸ h1) (h2.trans hb) (h3.trans hr) (by rw [h4]; simp only [State.recordFault, hf]; split <;> simp [hf]) (h5.trans hp)
  | reset n _ h1 h2 h3 h4 => exact .reset n _ h1 h2 (h3.trans hf) (h4.trans hp)
  | release _ h1 h2 h3 h4 => exact .release _ (h1.trans hb) h2 (h3.trans hf) (h4.trans hp)
  | writeTransfer k p _ h0 h1 h2 h3 h4 => exact .writeTransfer k p _ (hx k ▸ h0) (hb ▸ h1) (h2.trans hr) (h3.trans hf) (h4.trans hp)
  | readTransfer k p _ h0 h1 h2 h3 h4 => exact .readTransfer k p _ (hx k ▸ h0) (hb ▸ h1) (h2.trans hr) (h3.trans hf) (h4.trans hp)
  | engine e _ h0 h1 h2 h3 h4 h5 =>
    exact .engine e _ (ha ▸ h0) (by rw [← hb, ← hp]; exact h1) (by rw [h2, hb, hp]) (h3.trans hr) (h4.trans hf) (h5.trans hp)

/-- What one operation of a callback does: it begins a call, or acts on the clock or the reset input. -/
theorem State.callbackStep_moves (s : State) (c : CtxId) (ops : List HostOp) (rest : List Activation) :
    s.Moves .host (s.callbackStep c ops rest) := by
  unfold State.callbackStep
  split
  · exact .same _ _ (by simp) (by simp) (by simp) (by simp)
  · split
    · exact .same _ _ rfl rfl rfl rfl
    · exact .same _ _ rfl rfl rfl rfl
    · exact .same _ _ (by simp) (by simp) (by simp) (by simp)
    · rename_i ops _ i _
      have h := startInstr_alike i (s.callbackLeft c ops rest)
      exact .same _ _ (by rw [h.1]; simp) (by rw [h.2.1]; simp) (by rw [h.2.2.1]; simp) (by rw [h.2.2.2.1]; simp)
    · exact .same _ _ (by simp) (by simp) (by simp) (by simp)
    · exact (State.envReset_moves _ _).of_alike (by simp) (by simp) (by simp) (by simp) (by simp)
    · exact .same _ _ (by simp) (by simp) (by simp) (by simp)

/-- What one agent's step does. -/
theorem State.agentStep_moves (s : State) (t : Turn) : s.Moves t (s.agentStep t) := by
  have hsame : s.Moves t s := .same _ _ rfl rfl rfl rfl
  unfold State.agentStep
  split
  · exact hsame
  · cases t with
    | host =>
      simp only [State.hostStep]
      split
      · exact hsame
      · exact s.callbackStep_moves _ _ _
      · exact .same _ _ (by simp) (by simp) (by simp) (by simp)
      · exact s.micro_moves _ _ _ _
    | irq =>
      simp only [State.takeInterrupt]
      split
      · exact .same _ _ (by simp) (by simp) (by simp) (by simp)
      · exact hsame
    | xfer k =>
      simp only [State.xferStep]
      split
      · rename_i h
        unfold Block.transferDone
        split
        · exact .writeTransfer k _ _ h rfl rfl rfl rfl
        · exact .readTransfer k _ _ h rfl rfl rfl rfl
      · exact hsame
    | pe e =>
      simp only [State.peStep]
      split
      · rename_i h
        rw [Bool.and_eq_true] at h
        exact .engine e _ h.1 h.2 rfl rfl rfl rfl
      · exact hsame

/-- One move, by any agent. -/
def State.Move (s s' : State) : Prop := ∃ t, s.Moves t s'

theorem runTurns_moves (c : CtxId) (d : Nat) : ∀ (ts : List Turn) (s : State), Relation.ReflTransGen State.Move s (runTurns c d ts s)
  | [], s => .single ⟨.host, .same _ _ rfl rfl rfl rfl⟩
  | t :: ts, s => by
    rw [runTurns]
    split
    · exact .single ⟨.host, .same _ _ rfl rfl rfl rfl⟩
    · exact .head ⟨t, s.agentStep_moves t⟩ (runTurns_moves c d ts _)

/-- A call's run is a chain of moves. -/
theorem runCall_moves {start : State → State} {s : State} (h : s.Alike (start s)) :
    Relation.ReflTransGen State.Move s (runCall start s) := .head ⟨.host, h.moves _⟩ (runTurns_moves _ _ _ _)

/-- An instruction that answers a next state does so by a chain of moves. -/
theorem exec_moves {i : Instr} {s t : State} (h : exec i s = .next t) : Relation.ReflTransGen State.Move s t := by
  have hread : ∀ r, busRead r s = .next t → Relation.ReflTransGen State.Move s t := by
    intro r h
    unfold busRead at h
    split at h
    · rename_i ha; cases h; exact .single ⟨.host, .read r _ ha (by simp) (by simp) (by simp) (by simp)⟩
    · cases h
  have hwrite : ∀ r v, busWrite r v s = .next t → Relation.ReflTransGen State.Move s t := by
    intro r v h
    obtain ⟨ha, ⟨b, hb, rfl⟩ | ⟨f, hf, rfl⟩⟩ := busWrite_next h
    · exact .single ⟨.host, .stored r v _ ha hb rfl rfl rfl⟩
    · exact .single ⟨.host, .fault r v f _ ha hf (by simp) (by simp) rfl (by simp)⟩
  have hx : ∀ k p, exec (.xferWr k p) s = .next t ∨ exec (.xferRd k p) s = .next t → Relation.ReflTransGen State.Move s t := by
    rintro k p (h | h) <;> simp only [exec, execXferWr, execXferRd] at h <;> split at h
    · rename_i hk; cases h; exact .single ⟨.xfer k, .writeTransfer k p _ hk rfl rfl rfl rfl⟩
    · cases h
    · rename_i hk; cases h; exact .single ⟨.xfer k, .readTransfer k p _ hk rfl rfl rfl rfl⟩
    · cases h
  have hstart : ∀ {start : State → State}, start s = startInstr i s → Host.Outcome.next (start s) = (.next t : Host.Outcome State Fault Refusal) →
      Relation.ReflTransGen State.Move s t := by
    intro start e h
    cases h
    exact .single ⟨.host, (e ▸ startInstr_alike i s : s.Alike (start s)).moves _⟩
  have hcall : ∀ {start : State → State}, start s = startInstr i s →
      Host.Outcome.next (runCall start s) = (.next t : Host.Outcome State Fault Refusal) → Relation.ReflTransGen State.Move s t := by
    intro start e h
    cases h
    exact runCall_moves (e ▸ startInstr_alike i s)
  cases i <;> first
    | exact hread _ h
    | exact hwrite _ _ h
    | exact hx _ _ (.inl h)
    | exact hx _ _ (.inr h)
    | exact hcall rfl h
    | exact hstart rfl h
    | skip
  simp only [exec, execDispatch] at h
  split at h
  · cases h
    refine .head ⟨.irq, ?_⟩ (runTurns_moves _ _ _ _)
    unfold State.takeInterrupt
    split
    · exact .same _ _ (by simp) (by simp) (by simp) (by simp)
    · exact .same _ _ rfl rfl rfl rfl
  · cases h

/-- A 32-bit read is issued only while transactions are admitted (R140). -/
theorem State.resolve_wideRead {s : State} {op : HostOp} {r : Reg} (h : s.resolve op = .wideRead r) : s.admitted = true := by
  cases hadm : s.admitted with
  | true => rfl
  | false =>
    cases op with
    | call i =>
      simp only [State.resolve] at h
      split at h
      · cases h
      · split at h <;> cases h
    | _ => simp [State.resolve, hadm] at h

/-- A step that answers a next state does so by a chain of moves. -/
theorem step_moves {s t : State} (h : step s = .next t) : Relation.ReflTransGen State.Move s t := by
  have hsched : s.Alike s.schedule := by
    unfold State.schedule; split
    · exact ⟨rfl, rfl, rfl, rfl, rfl⟩
    · exact ⟨rfl, rfl, rfl, rfl, rfl⟩
  unfold step at h
  split at h
  · cases h
  · split at h
    · cases h; exact .single ⟨.host, hsched.moves _⟩
    · have hst : Relation.ReflTransGen State.Move s s.schedule.turnTaken :=
        .single ⟨.host, .same _ _ hsched.1 hsched.2.1 hsched.2.2.1 hsched.2.2.2.1⟩
      generalize s.schedule.turnTaken = u at h hst
      refine hst.trans ?_
      unfold takeTurn at h
      split at h
      · split at h
        · cases h
          unfold State.hostStep
          simp only
          split
          · exact .refl
          · exact .single ⟨.host, u.callbackStep_moves _ _ _⟩
          · exact .single ⟨.host, .same _ _ (by simp) (by simp) (by simp) (by simp)⟩
          · exact .single ⟨.host, u.micro_moves _ _ _ _⟩
        · cases h; exact .refl
        · cases h
        · cases h; exact .single ⟨.host, .same _ _ rfl rfl rfl rfl⟩
        · rename_i r hm
          cases h
          have ha : u.admitted = true := by
            cases hadm : u.admitted with
            | true => rfl
            | false =>
              exfalso
              unfold State.hostMove at hm
              split at hm
              · unfold State.fetch at hm
                split at hm
                · cases hm
                · rename_i op rest _
                  split at hm <;> cases hm
                  exact absurd (State.resolve_wideRead ‹_›) (by simp [hadm])
              · split at hm <;> cases hm
              · split at hm <;> cases hm
              · cases hm
          exact .single ⟨.host, .read r _ ha (by simp [State.issued]) (by simp [State.issued]) (by simp [State.issued]) (by simp [State.issued])⟩
        · exact .head ⟨.host, .same _ u.issued rfl rfl rfl rfl⟩ (exec_moves h)
        · cases h; exact .single ⟨.host, .same _ _ rfl rfl rfl rfl⟩
        · cases h; exact .single ⟨.host, .of_alike (u := u.issued) rfl rfl rfl rfl rfl (State.envReset_moves _ _)⟩
        · cases h; exact .single ⟨.host, .same _ _ rfl rfl rfl rfl⟩
      · split at h
        · exact exec_moves h
        · cases h; exact .refl
      · split at h
        · exact exec_moves h
        · cases h; exact .refl
      · cases h
        unfold State.peStep
        split
        · rename_i e hh
          rw [Bool.and_eq_true] at hh
          exact .single ⟨.pe _, .engine _ _ hh.1 hh.2 rfl rfl rfl rfl⟩
        · exact .refl

/-- A property that every move keeps is kept by every step. -/
theorem step_keeps {P : State → Prop} (hP : ∀ s s' : State, P s → s.Move s' → P s') {s t : State} (hs : P s)
    (h : step s = .next t) : P t := by
  have hm := step_moves h
  clear h
  induction hm with
  | refl => exact hs
  | tail _ hm ih => exact hP _ _ ih hm

end Sys2Proof.Machine
end

