-- ==== Sys2Proof/Laws/Transfer.lean ====
section
/-! SUPPORT. What a transfer does, field by field (R161 to R169): the object after a write transfer, the staging registers and the object
after a read transfer, and the block around them. -/

namespace Sys2Proof.Machine

/-! ### The staging registers after a read transfer -/

@[simp] theorem Iface.loaded_busy (f : Iface) (o : Obj) (p : Parts) : (f.loaded o p).busy = f.busy := by
  simp only [Iface.loaded, apply_ite Iface.busy, ite_self]
@[simp] theorem Iface.loaded_slot (f : Iface) (o : Obj) (p : Parts) : (f.loaded o p).slot = f.slot := by
  simp only [Iface.loaded, apply_ite Iface.slot, ite_self]
@[simp] theorem Iface.loaded_cmd (f : Iface) (o : Obj) (p : Parts) : (f.loaded o p).cmd = f.cmd := by
  simp only [Iface.loaded, apply_ite Iface.cmd, ite_self]
@[simp] theorem Iface.loaded_msgnum (f : Iface) (o : Obj) (p : Parts) : (f.loaded o p).msgnum = f.msgnum := by
  simp only [Iface.loaded, apply_ite Iface.msgnum, ite_self]
@[simp] theorem Iface.loaded_cmdmsk (f : Iface) (o : Obj) (p : Parts) : (f.loaded o p).cmdmsk = f.cmdmsk := by
  simp only [Iface.loaded, apply_ite Iface.cmdmsk, ite_self]
@[simp] theorem Iface.loaded_msk1 (f : Iface) (o : Obj) (p : Parts) : (f.loaded o p).msk1 = if p.mask then o.msk.extractLsb' 0 16 else f.msk1 := by
  simp only [Iface.loaded, apply_ite Iface.msk1, ite_self]
@[simp] theorem Iface.loaded_msk2 (f : Iface) (o : Obj) (p : Parts) : (f.loaded o p).msk2 = if p.mask then objMsk2 o else f.msk2 := by
  simp only [Iface.loaded, apply_ite Iface.msk2, ite_self]
@[simp] theorem Iface.loaded_arb1 (f : Iface) (o : Obj) (p : Parts) : (f.loaded o p).arb1 = if p.arb then o.id.extractLsb' 0 16 else f.arb1 := by
  simp only [Iface.loaded, apply_ite Iface.arb1, ite_self]
@[simp] theorem Iface.loaded_arb2 (f : Iface) (o : Obj) (p : Parts) : (f.loaded o p).arb2 = if p.arb then objArb2 o else f.arb2 := by
  simp only [Iface.loaded, apply_ite Iface.arb2, ite_self]
@[simp] theorem Iface.loaded_mctrl (f : Iface) (o : Obj) (p : Parts) : (f.loaded o p).mctrl = if p.ctrl then objMctrl o else f.mctrl := by
  simp only [Iface.loaded, apply_ite Iface.mctrl, ite_self]
@[simp] theorem Iface.loaded_da1 (f : Iface) (o : Obj) (p : Parts) : (f.loaded o p).da1 = if p.dataA then bytePair o.data[0] o.data[1] else f.da1 := by
  simp only [Iface.loaded, apply_ite Iface.da1, ite_self]
@[simp] theorem Iface.loaded_da2 (f : Iface) (o : Obj) (p : Parts) : (f.loaded o p).da2 = if p.dataA then bytePair o.data[2] o.data[3] else f.da2 := by
  simp only [Iface.loaded, apply_ite Iface.da2, ite_self]
@[simp] theorem Iface.loaded_db1 (f : Iface) (o : Obj) (p : Parts) : (f.loaded o p).db1 = if p.dataB then bytePair o.data[4] o.data[5] else f.db1 := by
  simp only [Iface.loaded, apply_ite Iface.db1, ite_self]
@[simp] theorem Iface.loaded_db2 (f : Iface) (o : Obj) (p : Parts) : (f.loaded o p).db2 = if p.dataB then bytePair o.data[6] o.data[7] else f.db2 := by
  simp only [Iface.loaded, apply_ite Iface.db2, ite_self]

/-! ### The object after a write transfer -/

@[simp] theorem Obj.written_msgval (o : Obj) (f : Iface) (p : Parts) : (o.written f p).msgval = if p.arb then f.arb2.getLsbD 15 else o.msgval := by
  simp only [Obj.written, Obj.putMask, Obj.putArb, Obj.putCtrl, Obj.putDataA, Obj.putDataB, apply_ite Obj.msgval, ite_self]
@[simp] theorem Obj.written_xtd (o : Obj) (f : Iface) (p : Parts) : (o.written f p).xtd = if p.arb then f.arb2.getLsbD 14 else o.xtd := by
  simp only [Obj.written, Obj.putMask, Obj.putArb, Obj.putCtrl, Obj.putDataA, Obj.putDataB, apply_ite Obj.xtd, ite_self]
@[simp] theorem Obj.written_dir (o : Obj) (f : Iface) (p : Parts) : (o.written f p).dir = if p.arb then f.arb2.getLsbD 13 else o.dir := by
  simp only [Obj.written, Obj.putMask, Obj.putArb, Obj.putCtrl, Obj.putDataA, Obj.putDataB, apply_ite Obj.dir, ite_self]
@[simp] theorem Obj.written_id (o : Obj) (f : Iface) (p : Parts) : (o.written f p).id = if p.arb then join29 f.arb2 f.arb1 else o.id := by
  simp only [Obj.written, Obj.putMask, Obj.putArb, Obj.putCtrl, Obj.putDataA, Obj.putDataB, apply_ite Obj.id, ite_self]
@[simp] theorem Obj.written_mxtd (o : Obj) (f : Iface) (p : Parts) : (o.written f p).mxtd = if p.mask then f.msk2.getLsbD 15 else o.mxtd := by
  simp only [Obj.written, Obj.putMask, Obj.putArb, Obj.putCtrl, Obj.putDataA, Obj.putDataB, apply_ite Obj.mxtd, ite_self]
@[simp] theorem Obj.written_mdir (o : Obj) (f : Iface) (p : Parts) : (o.written f p).mdir = if p.mask then f.msk2.getLsbD 14 else o.mdir := by
  simp only [Obj.written, Obj.putMask, Obj.putArb, Obj.putCtrl, Obj.putDataA, Obj.putDataB, apply_ite Obj.mdir, ite_self]
@[simp] theorem Obj.written_msk (o : Obj) (f : Iface) (p : Parts) : (o.written f p).msk = if p.mask then join29 f.msk2 f.msk1 else o.msk := by
  simp only [Obj.written, Obj.putMask, Obj.putArb, Obj.putCtrl, Obj.putDataA, Obj.putDataB, apply_ite Obj.msk, ite_self]
@[simp] theorem Obj.written_newdat (o : Obj) (f : Iface) (p : Parts) : (o.written f p).newdat = if p.ctrl then f.mctrl.getLsbD 15 else o.newdat := by
  simp only [Obj.written, Obj.putMask, Obj.putArb, Obj.putCtrl, Obj.putDataA, Obj.putDataB, apply_ite Obj.newdat, ite_self]
@[simp] theorem Obj.written_msglst (o : Obj) (f : Iface) (p : Parts) : (o.written f p).msglst = if p.ctrl then f.mctrl.getLsbD 14 else o.msglst := by
  simp only [Obj.written, Obj.putMask, Obj.putArb, Obj.putCtrl, Obj.putDataA, Obj.putDataB, apply_ite Obj.msglst, ite_self]
@[simp] theorem Obj.written_intpnd (o : Obj) (f : Iface) (p : Parts) : (o.written f p).intpnd = if p.ctrl then f.mctrl.getLsbD 13 else o.intpnd := by
  simp only [Obj.written, Obj.putMask, Obj.putArb, Obj.putCtrl, Obj.putDataA, Obj.putDataB, apply_ite Obj.intpnd, ite_self]
@[simp] theorem Obj.written_umask (o : Obj) (f : Iface) (p : Parts) : (o.written f p).umask = if p.ctrl then f.mctrl.getLsbD 12 else o.umask := by
  simp only [Obj.written, Obj.putMask, Obj.putArb, Obj.putCtrl, Obj.putDataA, Obj.putDataB, apply_ite Obj.umask, ite_self]
@[simp] theorem Obj.written_txie (o : Obj) (f : Iface) (p : Parts) : (o.written f p).txie = if p.ctrl then f.mctrl.getLsbD 11 else o.txie := by
  simp only [Obj.written, Obj.putMask, Obj.putArb, Obj.putCtrl, Obj.putDataA, Obj.putDataB, apply_ite Obj.txie, ite_self]
@[simp] theorem Obj.written_rxie (o : Obj) (f : Iface) (p : Parts) : (o.written f p).rxie = if p.ctrl then f.mctrl.getLsbD 10 else o.rxie := by
  simp only [Obj.written, Obj.putMask, Obj.putArb, Obj.putCtrl, Obj.putDataA, Obj.putDataB, apply_ite Obj.rxie, ite_self]
@[simp] theorem Obj.written_rmten (o : Obj) (f : Iface) (p : Parts) : (o.written f p).rmten = if p.ctrl then f.mctrl.getLsbD 9 else o.rmten := by
  simp only [Obj.written, Obj.putMask, Obj.putArb, Obj.putCtrl, Obj.putDataA, Obj.putDataB, apply_ite Obj.rmten, ite_self]
@[simp] theorem Obj.written_txrqst (o : Obj) (f : Iface) (p : Parts) : (o.written f p).txrqst = if p.txRqstNewDat then true else if p.ctrl then f.mctrl.getLsbD 8 else o.txrqst := by
  simp only [Obj.written, Obj.putMask, Obj.putArb, Obj.putCtrl, Obj.putDataA, Obj.putDataB, apply_ite Obj.txrqst, ite_self]
@[simp] theorem Obj.written_eob (o : Obj) (f : Iface) (p : Parts) : (o.written f p).eob = if p.ctrl then f.mctrl.getLsbD 7 else o.eob := by
  simp only [Obj.written, Obj.putMask, Obj.putArb, Obj.putCtrl, Obj.putDataA, Obj.putDataB, apply_ite Obj.eob, ite_self]
@[simp] theorem Obj.written_dlc (o : Obj) (f : Iface) (p : Parts) : (o.written f p).dlc = if p.ctrl then f.mctrl.extractLsb' 0 4 else o.dlc := by
  simp only [Obj.written, Obj.putMask, Obj.putArb, Obj.putCtrl, Obj.putDataA, Obj.putDataB, apply_ite Obj.dlc, ite_self]
theorem Obj.written_data (o : Obj) (f : Iface) (p : Parts) : (o.written f p).data =
    #v[if p.dataA then lowerByte f.da1 else o.data[0], if p.dataA then higherByte f.da1 else o.data[1],
       if p.dataA then lowerByte f.da2 else o.data[2], if p.dataA then higherByte f.da2 else o.data[3],
       if p.dataB then lowerByte f.db1 else o.data[4], if p.dataB then higherByte f.db1 else o.data[5],
       if p.dataB then lowerByte f.db2 else o.data[6], if p.dataB then higherByte f.db2 else o.data[7]] := by
  have key : ∀ o1 : Obj, o1.data = o.data →
      (if p.dataB then (if p.dataA then o1.putDataA f else o1).putDataB f else if p.dataA then o1.putDataA f else o1).data =
      #v[if p.dataA then lowerByte f.da1 else o.data[0], if p.dataA then higherByte f.da1 else o.data[1],
         if p.dataA then lowerByte f.da2 else o.data[2], if p.dataA then higherByte f.da2 else o.data[3],
         if p.dataB then lowerByte f.db1 else o.data[4], if p.dataB then higherByte f.db1 else o.data[5],
         if p.dataB then lowerByte f.db2 else o.data[6], if p.dataB then higherByte f.db2 else o.data[7]] := by
    intro o1 h
    rw [← h]
    cases p.dataA <;> cases p.dataB
    · exact (vector8_eta _).symm
    · rfl
    · rfl
    · rfl
  unfold Obj.written
  apply key
  simp only [Obj.putMask, Obj.putArb, Obj.putCtrl, apply_ite Obj.data, ite_self]

/-! ### The object after a read transfer -/

/-- A read transfer changes only the two clearable bits (R168). -/
theorem Obj.cleared_eq (o : Obj) (p : Parts) :
    o.cleared p = { o with intpnd := o.intpnd && !p.clrIntPnd, newdat := o.newdat && !p.txRqstNewDat } := by
  unfold Obj.cleared
  cases p.clrIntPnd <;> cases p.txRqstNewDat <;> simp

/-! ### The block after a transfer -/

theorem Block.writeTransfer_obj_slot (b : Block) (k : IfId) (p : Parts) :
    (b.writeTransfer k p).obj (b.iface k).slot = (b.obj (b.iface k).slot).written (b.iface k) p := by
  simp [Block.writeTransfer]

theorem Block.writeTransfer_obj_other (b : Block) (k : IfId) (p : Parts) {n : Slot} (h : n ≠ (b.iface k).slot) :
    (b.writeTransfer k p).obj n = b.obj n := by
  simp [Block.writeTransfer, Block.obj_setObj_other _ h]

theorem Block.writeTransfer_iface (b : Block) (k : IfId) (p : Parts) :
    (b.writeTransfer k p).iface k = { b.iface k with busy := false } := by
  simp [Block.writeTransfer]

theorem Block.readTransfer_obj_slot (b : Block) (k : IfId) (p : Parts) :
    (b.readTransfer k p).obj (b.iface k).slot = (b.obj (b.iface k).slot).cleared p := by
  simp [Block.readTransfer]

theorem Block.readTransfer_obj_other (b : Block) (k : IfId) (p : Parts) {n : Slot} (h : n ≠ (b.iface k).slot) :
    (b.readTransfer k p).obj n = b.obj n := by
  simp [Block.readTransfer, Block.obj_setObj_other _ h]

theorem Block.readTransfer_iface (b : Block) (k : IfId) (p : Parts) :
    (b.readTransfer k p).iface k = { (b.iface k).loaded (b.obj (b.iface k).slot) p with busy := false } := by
  simp [Block.readTransfer]

/-- A transfer changes no part of the block but its interface and the objects. -/
theorem Block.transferDone_rest (b : Block) (k : IfId) (c : Byte) :
    ((b.transferDone k c).setIface k (b.iface k)) = { b with objs := (b.transferDone k c).objs } := by
  unfold Block.transferDone Block.writeTransfer Block.readTransfer Block.setObj
  cases k <;> split <;> rfl

theorem Block.transferDone_iface_other (b : Block) {k j : IfId} (h : j ≠ k) (c : Byte) : (b.transferDone k c).iface j = b.iface j := by
  unfold Block.transferDone Block.writeTransfer Block.readTransfer
  split <;> simp [Block.iface_setIface_other _ h]

end Sys2Proof.Machine
end

