-- ==== Sys2Proof/Laws/Invariant.lean ====
section
/-! SUPPORT. What register writes and transfers leave of the machine's invariant (Safety.Inv). -/

namespace Sys2Proof.Machine

/-- A stored write keeps the interfaces' invariant and the latch's. -/
theorem writeReg_inv {b b' : Block} {r : Reg} {v : Word} (h : b.writeReg r v = .stored b')
    (hi : ∀ k, Safety.IfaceInv (b.iface k)) (hp : b.initPending = true → b.cntl.init = false) :
    (∀ k, Safety.IfaceInv (b'.iface k)) ∧ (b'.initPending = true → b'.cntl.init = false) := by
  have hmask : ∀ v : Word, (v &&& 0xDFFF#16) &&& 0x2000#16 = 0#16 := by intro v; apply word_ext; intro i hi; interval_cases i <;> simp
  have hmask2 : ∀ v : Word, (v &&& 0xFF8F#16) &&& 0x0070#16 = 0#16 := by intro v; apply word_ext; intro i hi; interval_cases i <;> simp
  cases r <;> simp only [Block.writeReg] at h
  case cntl =>
    cases h
    refine ⟨fun k => ?_, ?_⟩
    · have := hi k; cases k <;> exact this
    · simp only [Block.writeCntl]; cases v.getLsbD 0 <;> simp
  case stat =>
    cases h
    exact ⟨fun k => by have := hi k; cases k <;> exact this, hp⟩
  case bt =>
    unfold Block.writeBt at h; split at h <;> cases h
    exact ⟨fun k => by have := hi k; cases k <;> exact this, hp⟩
  case clkdiv =>
    unfold Block.writeClkdiv at h; split at h <;> cases h
    exact ⟨fun k => by have := hi k; cases k <;> exact this, hp⟩
  case test =>
    unfold Block.writeTest at h; split at h
    · cases h
    · split at h <;> cases h
      exact ⟨fun k => by have := hi k; cases k <;> exact this, hp⟩
  case iface k x =>
    unfold Block.writeIface at h
    split at h
    · cases h
    rename_i hbusy
    simp only [Bool.not_eq_true] at hbusy
    split at h
    · split at h
      · cases h
      · rename_i m hm
        cases h
        refine ⟨fun j => ?_, by cases k <;> exact hp⟩
        by_cases hj : j = k
        · subst hj
          rw [Block.iface_setIface_same]
          refine ⟨fun _ => rfl, fun _ => ?_, (hi j).msk2, (hi j).mctrl⟩
          unfold slotOfNumber at hm
          split at hm
          · rename_i hh; cases hm; simp only [Iface.start, slotNumber]; omega
          · cases hm
        · rw [Block.iface_setIface_other _ hj]; exact hi j
    · cases h
      refine ⟨fun j => ?_, by cases k <;> exact hp⟩
      by_cases hj : j = k
      · subst hj
        rw [Block.iface_setIface_same]
        have := hi j
        constructor
        · intro hb; exfalso; revert hb; cases x <;> simp [Iface.store, hbusy]
        · intro hb; exfalso; revert hb; cases x <;> simp [Iface.store, hbusy]
        · cases x <;> first | exact this.msk2 | exact hmask v
        · cases x <;> first | exact this.mctrl | exact hmask2 v
      · rw [Block.iface_setIface_other _ hj]; exact hi j
  all_goals (cases h; exact ⟨hi, hp⟩)

/-- MSK2 loaded from an object has its reserved bit 0 (R38). -/
theorem objMsk2_reserved (o : Obj) : objMsk2 o &&& 0x2000#16 = 0#16 := by
  apply word_ext; intro i hi; interval_cases i <;> simp [objMsk2, getElem_flag, getElem_field]

/-- MCTRL loaded from an object has its reserved bits 0 (R38). -/
theorem objMctrl_reserved (o : Obj) : objMctrl o &&& 0x0070#16 = 0#16 := by
  apply word_ext; intro i hi; interval_cases i <;> simp [objMctrl, getElem_flag, getElem_field]

end Sys2Proof.Machine
end

