-- ==== Sys2Proof/Laws/Issue.lean ====
section
/-! SUPPORT. What HOST_MAIN issues itself: the step for each kind of operation, and what an operation that is no call of a procedure can
do to the block. -/

namespace Sys2Proof.Machine

/-- The step in which HOST_MAIN issues an operation, by what the operation is. -/
theorem issues_step {s : State} {op : HostOp} {ts : List Turn} (h : Safety.Issues s op ts) :
    step s = match (s.withTurns ts).resolve op with
      | .waits => .fault .notAdmitted
      | .refused m => .next ((Safety.issued s ts).refuse m)
      | .wideRead r => .next ((Safety.issued s ts).hostReadWide r)
      | .instr i => exec i (Safety.issued s ts)
      | .clock b => .next ((Safety.issued s ts).envClock b)
      | .reset b => .next ((Safety.issued s ts).envReset b)
      | .passes => .next (Safety.issued s ts) := by
  obtain ⟨hr, ht, hm, hi, hp⟩ := h
  obtain ⟨rest, hp⟩ : ∃ rest, s.program = op :: rest := by cases hq : s.program <;> simp [hq] at hp; exact ⟨_, by rw [hp]⟩
  have hc : ((s.withTurns ts).ctx (s.withTurns ts).running).calls = [] := by simp [State.running, hi, State.ctx, hm]
  rw [turn_step hr ht]
  show takeTurn .host (s.withTurns ts) = _
  rw [takeTurn, State.hostMove, hc]
  simp only [State.fetch, State.withTurns_program, hp]
  have hi : (s.withTurns ts).issued = Safety.issued s ts := rfl
  cases (s.withTurns ts).resolve op <;> simp [hi]

/-- A transaction decodes to a BUS row only. -/
theorem decodeAt_bus {w : Bool} {off : Nat} {v : Word} {i : Instr} (h : decodeAt w off v = .instr i) : (busOp i).isSome = true := by
  unfold decodeAt at h
  split at h
  · cases h
  · split at h
    · split at h
      · rename_i r _ _ j hj; cases h; rw [busOp_writeOp hj]; rfl
      · cases h
    · cases h; rw [busOp_readOp]; rfl

/-- An operation that is no call of a procedure resolves to a BUS row, if to an instruction. -/
theorem resolve_bus {s : State} {op : HostOp} {i : Instr} (hp : Safety.NoProcedure op) (h : s.resolve op = .instr i) :
    (busOp i).isSome = true := by
  have hd : ∀ d, resolveDecoded d = .instr i → d = .instr i := by intro d h; cases d <;> simp_all [resolveDecoded]
  cases op with
  | word t =>
    simp only [State.resolve] at h
    split at h
    · have := hd _ h; unfold decodeBus at this; split at this
      · cases this
      · exact decodeAt_bus this
    · cases h
  | access width write addr data =>
    simp only [State.resolve] at h
    split at h
    · unfold resolveAccess at h
      split at h
      · cases h
      · split at h
        · cases h
        · have := hd _ h; unfold decodeAccess at this; split at this
          · cases this
          · exact decodeAt_bus this
    · cases h
  | call j =>
    simp only [State.resolve] at h
    split at h
    · cases h
    · rename_i hn
      split at h
      · cases h
      · cases h
        rcases hp i rfl with h | rfl | ⟨k, p, rfl | rfl⟩
        · exact h
        all_goals simp [isHostInstr] at hn
  | envClock b => cases h
  | envReset b => cases h

/-- All a bus transaction does to the block. -/
theorem exec_bus_block {i : Instr} {s t : State} (hi : (busOp i).isSome = true) (h : exec i s = .next t) :
    (∃ r, t.block = s.block.afterRead r) ∨ t.block = s.block ∨ ∃ r v, s.block.writeReg r v = .stored t.block := by
  obtain ⟨op, ho⟩ := Option.isSome_iff_exists.1 hi
  rw [exec_busOp ho] at h
  cases op with
  | rd r =>
    simp only [busRead] at h
    split at h
    · cases h; exact .inl ⟨r, by simp⟩
    · cases h
  | wr r v =>
    obtain ⟨_, ⟨b, hb, rfl⟩ | ⟨f, _, rfl⟩⟩ := busWrite_next h
    · exact .inr (.inr ⟨r, v, hb⟩)
    · exact .inr (.inl (by simp))

/-- All that an operation which HOST_MAIN issues itself does to the block, if it is no call of a procedure: it asserts reset, reads a
register, leaves the block, or stores a write. -/
theorem issues_block {s t : State} {op : HostOp} {ts : List Turn} (h : Safety.Issues s op ts) (hp : Safety.NoProcedure op)
    (hs : step s = .next t) : (op = .envReset true ∧ t = (Safety.issued s ts).envReset true) ∨
      (∃ r, t.block = s.block.afterRead r) ∨ t.block = s.block ∨ ∃ r v, s.block.writeReg r v = .stored t.block := by
  rw [issues_step h] at hs
  have hib : (Safety.issued s ts).block = s.block := rfl
  split at hs
  · cases hs
  · cases hs; exact .inr (.inr (.inl rfl))
  · cases hs; exact .inr (.inl ⟨_, by rw [State.hostReadWide_block, hib]⟩)
  · rename_i i hi; exact .inr (exec_bus_block (s := Safety.issued s ts) (resolve_bus hp hi) hs)
  · cases hs; exact .inr (.inr (.inl rfl))
  · rename_i b hb
    have ho : op = .envReset b := by
      cases op with
      | envReset c => cases hb; rfl
      | word x =>
        simp only [State.resolve] at hb
        split at hb
        · unfold resolveDecoded at hb; split at hb <;> cases hb
        · cases hb
      | access width write addr data =>
        simp only [State.resolve] at hb
        split at hb
        · unfold resolveAccess at hb
          split at hb
          · cases hb
          · split at hb
            · cases hb
            · unfold resolveDecoded at hb; split at hb <;> cases hb
        · cases hb
      | call j =>
        simp only [State.resolve] at hb
        split at hb
        · cases hb
        · split at hb <;> cases hb
      | envClock b => cases hb
    cases hs
    cases b with
    | true => exact .inl ⟨ho, rfl⟩
    | false => exact .inr (.inr (.inl rfl))
  · cases hs; exact .inr (.inr (.inl rfl))

/-- While a transfer is in flight no read and no stored write changes its interface (R155, R264). -/
theorem busy_kept {b b' : Block} {k : IfId} (hb : (b.iface k).busy = true)
    (h : (∃ r, b' = b.afterRead r) ∨ b' = b ∨ ∃ r v, b.writeReg r v = .stored b') : b'.iface k = b.iface k := by
  rcases h with ⟨r, rfl⟩ | rfl | ⟨r, v, h⟩
  · unfold Block.afterRead; split <;> cases k <;> rfl
  · rfl
  · by_cases hx : ∃ x, r = .iface k x
    · obtain ⟨x, rfl⟩ := hx
      simp only [Block.writeReg, Block.writeIface, hb] at h
      simp at h
    · exact (Block.writeReg_frame h).2.2.2.2.2.2.2.2.1 k (fun x e => hx ⟨x, e⟩)

/-- No read and no stored write changes the message RAM (R77, R141). -/
theorem objs_kept {b b' : Block} (h : (∃ r, b' = b.afterRead r) ∨ b' = b ∨ ∃ r v, b.writeReg r v = .stored b') : b'.objs = b.objs := by
  rcases h with ⟨r, rfl⟩ | rfl | ⟨r, v, h⟩
  · unfold Block.afterRead; split <;> rfl
  · rfl
  · exact (Block.writeReg_frame h).1

end Sys2Proof.Machine
end

