-- ==== Sys2Proof/Laws/Packing.lean ====
section
/-! SUPPORT. The packing functions as numbers (R190, R200, R201): what each word of a filter or a frame is worth. -/

namespace Sys2Proof.Machine

/-- Or of a word whose low bits are 0 with a small one is their sum. -/
theorem toNat_or_low {x y : Word} (k : Nat) (hx : x.toNat % 2 ^ k = 0) (hy : y.toNat < 2 ^ k) :
    (x ||| y).toNat = x.toNat + y.toNat := by
  have h : x.toNat = (x.toNat / 2 ^ k) <<< k := by
    rw [Nat.shiftLeft_eq]; exact (Nat.div_mul_cancel (Nat.dvd_of_mod_eq_zero hx)).symm
  rw [BitVec.toNat_or, h, Nat.shiftLeft_add_eq_or_of_lt hy]

/-- Identifier bits 28:16 as a number. -/
theorem toNat_identHigh (n : Nat) (h : n ≤ 0x1FFFFFFF) : (identHigh n).toNat = n / 65536 := by
  simp only [identHigh, field, BitVec.shiftLeft_zero, BitVec.toNat_setWidth, BitVec.extractLsb'_toNat, BitVec.toNat_ofNat, Nat.shiftRight_eq_div_pow]
  omega

/-- A standard identifier or mask at bits 12:2 as a number. -/
theorem toNat_identStd (n : Nat) (h : n ≤ 0x7FF) : (identStd n).toNat = n * 4 := by
  simp only [identStd, field, BitVec.toNat_shiftLeft, BitVec.toNat_setWidth, BitVec.toNat_ofNat, Nat.shiftLeft_eq]
  omega

/-- ARB2 of pack_tx as a number (R200). -/
theorem toNat_txArb2 (f : Frame) (h : f.id ≤ f.fmt.maxId) :
   (txArb2 f).toNat = 0x8000 + (if f.fmt = .ext then 0x4000 else 0) + (if f.type = .remote then 0x2000 else 0) + (if f.fmt = .ext then f.id / 65536 else f.id * 4) := by
  unfold txArb2
  cases hf : f.fmt with
  | ext =>
    rw [hf] at h
    have := toNat_identHigh f.id h
    simp only [Fmt.maxId] at h
    simp only
    rw [toNat_or_low 13 (by cases f.type <;> decide) (by omega), this]; cases f.type <;> rfl
  | std =>
    rw [hf] at h
    have := toNat_identStd f.id h
    simp only [Fmt.maxId] at h
    simp only
    rw [toNat_or_low 13 (by cases f.type <;> decide) (by omega), this]; cases f.type <;> rfl


/-- A bit of a word from its number. -/
theorem getLsbD_toNat {w : Nat} (x : BitVec w) (i : Nat) : x.getLsbD i = decide (x.toNat / 2 ^ i % 2 = 1) := by
  rw [BitVec.getLsbD, Nat.testBit_eq_decide_div_mod_eq]

/-- ARB2 of pack_filter as a number (R190). -/
theorem toNat_filterArb2 {id : Nat} {fmt : Fmt} (h : id ≤ fmt.maxId) :
    (filterArb2 id fmt).toNat = 0x8000 + (if fmt = .ext then 0x4000 + id / 65536 else id * 4) := by
  cases fmt with
  | ext =>
    have := toNat_identHigh id h; simp only [Fmt.maxId] at h
    rw [filterArb2, toNat_or_low 13 (by decide) (by omega), this]; simp; omega
  | std =>
    have := toNat_identStd id h; simp only [Fmt.maxId] at h
    rw [filterArb2, toNat_or_low 13 (by decide) (by omega), this]; rfl

/-- MSK2 of pack_filter as a number (R190). -/
theorem toNat_filterMsk2 {mask : Nat} {fmt : Fmt} (h : mask ≤ fmt.maxId) :
    (filterMsk2 mask fmt).toNat = if fmt = .ext then 0x8000 + mask / 65536 else mask * 4 := by
  cases fmt with
  | ext =>
    have := toNat_identHigh mask h; simp only [Fmt.maxId] at h
    rw [filterMsk2, toNat_or_low 13 (by decide) (by omega), this]; rfl
  | std => exact toNat_identStd mask h

/-- ARB1 as a number (R190, R200). -/
theorem toNat_packArb1 (id : Nat) (fmt : Fmt) : (packArb1 id fmt).toNat = if fmt = .ext then id % 65536 else 0 := by
  cases fmt <;> simp [packArb1, identLow]

/-- MSK2 of a filter has bit 13 clear, so storing it loses nothing (R38, R190). -/
theorem filterMsk2_stored {mask : Nat} {fmt : Fmt} (h : mask ≤ fmt.maxId) : filterMsk2 mask fmt &&& 0xDFFF#16 = filterMsk2 mask fmt := by
  have ht := toNat_filterMsk2 h
  apply word_ext; intro i hi
  rw [BitVec.getLsbD_and]
  by_cases h13 : i = 13
  · subst h13
    have : (filterMsk2 mask fmt).getLsbD 13 = false := by
      rw [getLsbD_toNat, ht]; cases fmt <;> simp [Fmt.maxId] at * <;> omega
    rw [this]; rfl
  · have : (0xDFFF#16).getLsbD i = true := by interval_cases i <;> first | rfl | (exfalso; exact h13 rfl)
    rw [this, Bool.and_true]

/-- MCTRL of pack_tx as a number (R200). -/
theorem toNat_txMctrl {n : Nat} (h : n ≤ 8) : (0x1180#16 ||| BitVec.ofNat 16 n).toNat = 0x1180 + n := by
  rw [toNat_or_low 4 (by decide) (by rw [BitVec.toNat_ofNat]; omega), BitVec.toNat_ofNat]
  simp; omega

/-- MSK2 of pack_tx has bit 13 clear (R38, R200). -/
theorem txMsk2_stored (f : Frame) : txMsk2 f.fmt &&& 0xDFFF#16 = txMsk2 f.fmt := by cases f.fmt <;> decide

/-- MCTRL of pack_tx has bits 6:4 clear (R38, R200). -/
theorem txMctrl_stored {n : Nat} (h : n ≤ 8) : (0x1180#16 ||| BitVec.ofNat 16 n) &&& 0xFF8F#16 = 0x1180#16 ||| BitVec.ofNat 16 n := by
  interval_cases n <;> decide

/-- The bits of MCTRL of pack_tx above the length code (R200). -/
theorem txMctrl_bits {n : Nat} (h : n ≤ 8) (i : Nat) (h1 : 4 ≤ i) (h2 : i < 16) :
    (0x1180#16 ||| BitVec.ofNat 16 n).getLsbD i = (0x1180#16).getLsbD i := by
  interval_cases n <;> interval_cases i <;> rfl

end Sys2Proof.Machine
end

