-- ==== Sys2Proof/Laws/PerInstr.lean ====
section
/-! SUPPORT. The per-instruction facts of the encoding (R90, R92, R94): where the direction bit stands in each row's word, that the must-be-zero
field is 0, and that the rows without a word are no bus transaction. -/

namespace Sys2Proof.Laws.Encoding

open Sys2Proof Sys2Proof.Machine

/-- A BUS row's word has Z = 0 and bit 31 exactly for a write (R92); a CMD row's word has bit 7 exactly for XFER_WR (R94); a row without
a word is no bus transaction (R90). -/
def Statement (i : Instr) : Prop :=
  match encode i with
  | some (.bus t) => t.extractLsb' 28 3 = 0#3 ∧ (t.getLsbD 31 = true ↔ ∃ r v, busOp i = some (.wr r v))
  | some (.cmd k c) => c.getLsbD 7 = true ↔ ∃ p, i = .xferWr k p
  | none => busOp i = none

/-- A read word has Z = 0 and its direction bit 0. -/
theorem of_rd {i : Instr} {r : Reg} (h : busOp i = some (.rd r)) : Statement i := by
  have hr := regOffset_lt r
  unfold Statement
  rw [encode_busOp h]
  refine ⟨?_, ?_⟩
  · apply BitVec.eq_of_toNat_eq
    simp only [busWord, BitVec.extractLsb'_toNat, BitVec.toNat_ofNat, Nat.shiftRight_eq_div_pow]; omega
  · simp only [h, busWord, BitVec.getLsbD_ofNat, Nat.testBit_eq_decide_div_mod_eq]
    simp; omega

/-- A write word has Z = 0 and its direction bit 1. -/
theorem of_wr {i : Instr} {r : Reg} {v : Word} (h : busOp i = some (.wr r v)) : Statement i := by
  have hr := regOffset_lt r
  have hv := v.isLt
  unfold Statement
  rw [encode_busOp h]
  refine ⟨?_, ?_⟩
  · apply BitVec.eq_of_toNat_eq
    simp only [busWord, BitVec.extractLsb'_toNat, BitVec.toNat_ofNat, Nat.shiftRight_eq_div_pow]; omega
  · simp only [h, busWord, BitVec.getLsbD_ofNat, Nat.testBit_eq_decide_div_mod_eq]
    simp; omega

theorem rdCntl : Statement .rdCntl := of_rd rfl
theorem rdStat : Statement .rdStat := of_rd rfl
theorem rdEc : Statement .rdEc := of_rd rfl
theorem rdBt : Statement .rdBt := of_rd rfl
theorem rdInt : Statement .rdInt := of_rd rfl
theorem rdTest : Statement .rdTest := of_rd rfl
theorem rdIf1Cmdreq : Statement .rdIf1Cmdreq := of_rd rfl
theorem rdIf1Cmdmsk : Statement .rdIf1Cmdmsk := of_rd rfl
theorem rdIf1Msk1 : Statement .rdIf1Msk1 := of_rd rfl
theorem rdIf1Msk2 : Statement .rdIf1Msk2 := of_rd rfl
theorem rdIf1Arb1 : Statement .rdIf1Arb1 := of_rd rfl
theorem rdIf1Arb2 : Statement .rdIf1Arb2 := of_rd rfl
theorem rdIf1Mctrl : Statement .rdIf1Mctrl := of_rd rfl
theorem rdIf1Da1 : Statement .rdIf1Da1 := of_rd rfl
theorem rdIf1Da2 : Statement .rdIf1Da2 := of_rd rfl
theorem rdIf1Db1 : Statement .rdIf1Db1 := of_rd rfl
theorem rdIf1Db2 : Statement .rdIf1Db2 := of_rd rfl
theorem rdIf2Cmdreq : Statement .rdIf2Cmdreq := of_rd rfl
theorem rdIf2Cmdmsk : Statement .rdIf2Cmdmsk := of_rd rfl
theorem rdIf2Msk1 : Statement .rdIf2Msk1 := of_rd rfl
theorem rdIf2Msk2 : Statement .rdIf2Msk2 := of_rd rfl
theorem rdIf2Arb1 : Statement .rdIf2Arb1 := of_rd rfl
theorem rdIf2Arb2 : Statement .rdIf2Arb2 := of_rd rfl
theorem rdIf2Mctrl : Statement .rdIf2Mctrl := of_rd rfl
theorem rdIf2Da1 : Statement .rdIf2Da1 := of_rd rfl
theorem rdIf2Da2 : Statement .rdIf2Da2 := of_rd rfl
theorem rdIf2Db1 : Statement .rdIf2Db1 := of_rd rfl
theorem rdIf2Db2 : Statement .rdIf2Db2 := of_rd rfl
theorem rdTxreq1 : Statement .rdTxreq1 := of_rd rfl
theorem rdTxreq2 : Statement .rdTxreq2 := of_rd rfl
theorem rdNd1 : Statement .rdNd1 := of_rd rfl
theorem rdNd2 : Statement .rdNd2 := of_rd rfl
theorem rdIr1 : Statement .rdIr1 := of_rd rfl
theorem rdIr2 : Statement .rdIr2 := of_rd rfl
theorem rdMsgv1 : Statement .rdMsgv1 := of_rd rfl
theorem rdMsgv2 : Statement .rdMsgv2 := of_rd rfl
theorem rdClkdiv : Statement .rdClkdiv := of_rd rfl
theorem wrCntl (v : Word) : Statement (.wrCntl v) := of_wr rfl
theorem wrStat (v : Word) : Statement (.wrStat v) := of_wr rfl
theorem wrBt (v : Word) : Statement (.wrBt v) := of_wr rfl
theorem wrTest (v : Word) : Statement (.wrTest v) := of_wr rfl
theorem wrIf1Cmdreq (v : Word) : Statement (.wrIf1Cmdreq v) := of_wr rfl
theorem wrIf1Cmdmsk (v : Word) : Statement (.wrIf1Cmdmsk v) := of_wr rfl
theorem wrIf1Msk1 (v : Word) : Statement (.wrIf1Msk1 v) := of_wr rfl
theorem wrIf1Msk2 (v : Word) : Statement (.wrIf1Msk2 v) := of_wr rfl
theorem wrIf1Arb1 (v : Word) : Statement (.wrIf1Arb1 v) := of_wr rfl
theorem wrIf1Arb2 (v : Word) : Statement (.wrIf1Arb2 v) := of_wr rfl
theorem wrIf1Mctrl (v : Word) : Statement (.wrIf1Mctrl v) := of_wr rfl
theorem wrIf1Da1 (v : Word) : Statement (.wrIf1Da1 v) := of_wr rfl
theorem wrIf1Da2 (v : Word) : Statement (.wrIf1Da2 v) := of_wr rfl
theorem wrIf1Db1 (v : Word) : Statement (.wrIf1Db1 v) := of_wr rfl
theorem wrIf1Db2 (v : Word) : Statement (.wrIf1Db2 v) := of_wr rfl
theorem wrIf2Cmdreq (v : Word) : Statement (.wrIf2Cmdreq v) := of_wr rfl
theorem wrIf2Cmdmsk (v : Word) : Statement (.wrIf2Cmdmsk v) := of_wr rfl
theorem wrIf2Msk1 (v : Word) : Statement (.wrIf2Msk1 v) := of_wr rfl
theorem wrIf2Msk2 (v : Word) : Statement (.wrIf2Msk2 v) := of_wr rfl
theorem wrIf2Arb1 (v : Word) : Statement (.wrIf2Arb1 v) := of_wr rfl
theorem wrIf2Arb2 (v : Word) : Statement (.wrIf2Arb2 v) := of_wr rfl
theorem wrIf2Mctrl (v : Word) : Statement (.wrIf2Mctrl v) := of_wr rfl
theorem wrIf2Da1 (v : Word) : Statement (.wrIf2Da1 v) := of_wr rfl
theorem wrIf2Da2 (v : Word) : Statement (.wrIf2Da2 v) := of_wr rfl
theorem wrIf2Db1 (v : Word) : Statement (.wrIf2Db1 v) := of_wr rfl
theorem wrIf2Db2 (v : Word) : Statement (.wrIf2Db2 v) := of_wr rfl
theorem wrClkdiv (v : Word) : Statement (.wrClkdiv v) := of_wr rfl
theorem xferWr (k : IfId) (p : Parts) : Statement (.xferWr k p) := by
  have h := (partsOf_partsValue p true).2
  exact ⟨fun _ => ⟨p, rfl⟩, fun _ => h⟩
theorem xferRd (k : IfId) (p : Parts) : Statement (.xferRd k p) := by
  have h := (partsOf_partsValue p false).2
  refine ⟨fun g => ?_, fun ⟨_, g⟩ => by cases g⟩
  simp only [Bool.false_eq_true, if_false, Nat.zero_add] at h
  rw [h] at g; cases g
theorem btcalc (clk rate rjw : Nat) : Statement (.btcalc clk rate rjw) := rfl
theorem packFilter (id mask : Nat) (fmt : Fmt) : Statement (.packFilter id mask fmt) := rfl
theorem packTx (frame : Frame) : Statement (.packTx frame) := rfl
theorem unpackRx (arb1 arb2 mctrl da1 da2 db1 db2 : Word) : Statement (.unpackRx arb1 arb2 mctrl da1 da2 db1 db2) := rfl
theorem spin (k : IfId) : Statement (.spin k) := rfl
theorem transfer (k : IfId) (n : Word) (c : Byte) : Statement (.transfer k n c) := rfl
theorem clrTxok : Statement .clrTxok := rfl
theorem clrRxok : Statement .clrRxok := rfl
theorem setCntl (m : Word) : Statement (.setCntl m) := rfl
theorem clrCntl (m : Word) : Statement (.clrCntl m) := rfl
theorem enable : Statement .enable := rfl
theorem installTemplates : Statement .installTemplates := rfl
theorem setBitrate (rate : Nat) : Statement (.setBitrate rate) := rfl
theorem installFilter (id mask : Nat) (fmt : Fmt) (slot : Nat) : Statement (.installFilter id mask fmt slot) := rfl
theorem send (frame : Frame) (flags : Nat) : Statement (.send frame flags) := rfl
theorem txStatus : Statement .txStatus := rfl
theorem receive (slot : Nat) : Statement (.receive slot) := rfl
theorem rxErrCount : Statement .rxErrCount := rfl
theorem txErrCount : Statement .txErrCount := rfl
theorem init (rxPin txPin : Nat) : Statement (.init rxPin txPin) := rfl
theorem setMode (m : ReqMode) : Statement (.setMode m) := rfl
theorem monitor (on : Bool) : Statement (.monitor on) := rfl
theorem reset : Statement .reset := rfl
theorem teardown : Statement .teardown := rfl
theorem irqRegister (cb token : Nat) : Statement (.irqRegister cb token) := rfl
theorem irqUnregister : Statement .irqUnregister := rfl
theorem irqEnableClass (cls : IrqClass) (on : Bool) : Statement (.irqEnableClass cls on) := rfl
theorem dispatch : Statement .dispatch := rfl

end Sys2Proof.Laws.Encoding
end

