-- ==== Sys2Proof/Laws/Run.lean ====
section
/-! SUPPORT. How a call runs: State.inCall is the state in which context c is inside a call with actions todo over the calls cs, and each
lemma says what one turn does to it. A whole call is the chain of these lemmas over its schedule. -/

namespace Sys2Proof.Machine

/-- The state s with another block, counter of free values, and last value read in context c. -/
def State.view (s : State) (c : CtxId) (b : Block) (n : Nat) (w : BitVec 32) : State :=
  ({ s with block := b, fresh := n } : State).setCtx c { s.ctx c with rdata := w }

/-- That state, with context c inside a call that goes on with the actions todo, over the calls cs. -/
def State.inCall (s : State) (c : CtxId) (cs : List Activation) (b : Block) (n : Nat) (w : BitVec 32) (todo : List Micro) : State :=
  (s.view c b n w).continueCall c todo cs

/-- That state after the call returned r, with the turns that are left. -/
def State.afterCall (s : State) (c : CtxId) (cs : List Activation) (b : Block) (n : Nat) (w : BitVec 32) (r : Ret)
    (ts : List Turn) : State :=
  ({ s with block := b, fresh := n, turns := ts } : State).setCtx c { calls := cs, rdata := w, ret := r }

/-- Context c is the one that runs while it has a call: HOST_IRQ, or HOST_MAIN while no dispatch runs. -/
def State.Runs (s : State) (c : CtxId) : Prop := c = .irq ∨ s.irq.calls = []

theorem State.runs_running (s : State) : s.Runs s.running := by
  unfold State.Runs State.running
  cases h : s.irq.calls <;> simp

variable {s : State} {c : CtxId} {cs : List Activation} {b : Block} {n : Nat} {w : BitVec 32} {todo : List Micro} {ts : List Turn}

/-- An action that is not a return. -/
def Micro.goesOn : Micro → Bool
  | .ret _ => false
  | _ => true

theorem State.inCall_ctx (m : Micro) (hm : m.goesOn = true) :
    (s.inCall c cs b n w (m :: todo)).ctx c = { s.ctx c with rdata := w, calls := .proc (m :: todo) :: cs } := by
  cases m <;> first | (cases hm; done) | (cases c <;> rfl)

theorem State.inCall_running (hc : s.Runs c) (m : Micro) (hm : m.goesOn = true) :
    (s.inCall c cs b n w (m :: todo)).running = c := by
  have h := State.inCall_ctx (s := s) (c := c) (cs := cs) (b := b) (n := n) (w := w) (todo := todo) m hm
  cases c with
  | irq =>
    have : (s.inCall .irq cs b n w (m :: todo)).irq.calls = .proc (m :: todo) :: cs := by
      have := congrArg HostCtx.calls h; exact this
    simp [State.running, this]
  | main =>
    have h2 : s.irq.calls = [] := hc.resolve_left (by simp)
    have : (s.inCall .main cs b n w (m :: todo)).irq = s.irq := by
      simp [State.inCall, State.view, State.continueCall]
    simp [State.running, this, h2]

@[simp] theorem State.inCall_block : (s.inCall c cs b n w todo).block = b := by simp [State.inCall, State.view]
@[simp] theorem State.inCall_fresh : (s.inCall c cs b n w todo).fresh = n := by simp [State.inCall, State.view]
@[simp] theorem State.inCall_clkEn : (s.inCall c cs b n w todo).clkEn = s.clkEn := by simp [State.inCall, State.view]
@[simp] theorem State.inCall_rst : (s.inCall c cs b n w todo).rst = s.rst := by simp [State.inCall, State.view]
@[simp] theorem State.inCall_faults : (s.inCall c cs b n w todo).faults = s.faults := by simp [State.inCall, State.view]
@[simp] theorem State.inCall_refused : (s.inCall c cs b n w todo).refused = s.refused := by simp [State.inCall, State.view]
@[simp] theorem State.inCall_reg : (s.inCall c cs b n w todo).reg = s.reg := by simp [State.inCall, State.view]
@[simp] theorem State.inCall_hostIe : (s.inCall c cs b n w todo).hostIe = s.hostIe := by simp [State.inCall, State.view]
@[simp] theorem State.inCall_params : (s.inCall c cs b n w todo).params = s.params := by simp [State.inCall, State.view]
@[simp] theorem State.inCall_admitted : (s.inCall c cs b n w todo).admitted = s.admitted := by simp [State.admitted]

/-- While the innermost call goes on, the run takes the next turn. -/
theorem runTurns_goesOn (hr : s.refused = none) (m : Micro) (hm : m.goesOn = true) (t : Turn) :
    runTurns c cs.length (t :: ts) (s.inCall c cs b n w (m :: todo)) =
      runTurns c cs.length ts ((s.inCall c cs b n w (m :: todo)).agentStep t) := by
  rw [runTurns, State.returned, State.inCall_ctx m hm]
  simp [hr]

/-- A host turn takes the call's next action. -/
theorem State.inCall_hostStep (hc : s.Runs c) (hr : s.refused = none) (m : Micro) (hm : m.goesOn = true) :
    (s.inCall c cs b n w (m :: todo)).agentStep .host =
      (s.inCall c cs b n w (m :: todo)).micro c m todo cs := by
  have h : (s.inCall c cs b n w (m :: todo)).running = c := State.inCall_running hc m hm
  simp only [State.agentStep, State.inCall_refused, hr, State.hostStep, h, State.inCall_ctx m hm]
  simp

/-- The run of a call that begins as a plan. -/
theorem runCall_plan (plan : List Micro) (start : State → State) (h : start s = s.startPlan plan) :
    runCall start s = runTurns s.running (s.ctx s.running).calls.length s.turns
      (s.inCall s.running (s.ctx s.running).calls s.block s.fresh (s.ctx s.running).rdata plan) := by
  rw [runCall, h, State.startPlan, State.beginCall, State.inCall, State.view]
  congr 2
  generalize s.running = c
  cases c <;> rfl

/-- A call that has come to its return has returned: the run stops there. -/
theorem runTurns_ret (r : Ret) :
    runTurns c cs.length ts (s.inCall c cs b n w (.ret r :: todo)) = s.afterCall c cs b n w r ts := by
  have h1 : ((s.inCall c cs b n w (.ret r :: todo)).withTurns ts) = s.afterCall c cs b n w r ts := by
    cases c <;> rfl
  have h2 : (s.inCall c cs b n w (.ret r :: todo)).returned c cs.length = true := by
    cases c <;> simp [State.returned, State.inCall, State.view, State.continueCall, HostCtx.settle, State.ctx, State.setCtx]
  cases ts with
  | nil => rw [runTurns, h1]
  | cons t ts => rw [runTurns, h2]; exact h1

/-! ### One turn of a call -/

theorem State.inCall_read (hc : s.Runs c) (m : Micro) (hm : m.goesOn = true) (r : Reg) (todo' : List Micro) :
    ((s.inCall c cs b n w (m :: todo)).hostRead r).continueCall c todo' cs =
      s.inCall c cs (b.afterRead r) (n + 1) ((b.readWord (Config.freeWord n) r).setWidth 32) todo' := by
  have h : (s.inCall c cs b n w (m :: todo)).running = c := State.inCall_running hc m hm
  rw [State.hostRead, State.returnRead, h, State.readWord, State.inCall_block, State.inCall_fresh]
  cases m <;> first | (cases hm; done) | (cases c <;> rfl)

theorem State.inCall_readWord (r : Reg) :
    (s.inCall c cs b n w todo).readWord r = b.readWord (Config.freeWord n) r := by
  rw [State.readWord, State.inCall_block, State.inCall_fresh]

theorem State.inCall_usedWord (r : Reg) :
    (s.inCall c cs b n w todo).usedWord r = b.usedWord (Config.freeWord n) r := by
  rw [State.usedWord, State.inCall_block, State.inCall_fresh]

theorem State.inCall_continue (m : Micro) (hm : m.goesOn = true) (todo' : List Micro) :
    (s.inCall c cs b n w (m :: todo)).continueCall c todo' cs = s.inCall c cs b n w todo' := by
  cases m <;> first | (cases hm; done) | (cases c <;> rfl)

/-- RD r: the read takes effect, and the actions that follow depend on its value. -/
theorem runTurns_rd (hc : s.Runs c) (hr : s.refused = none) (ha : s.admitted = true) (r : Reg) (k : Cont) :
    runTurns c cs.length (.host :: ts) (s.inCall c cs b n w (.rd r k :: todo)) =
      runTurns c cs.length ts
        (s.inCall c cs (b.afterRead r) (n + 1) ((b.readWord (Config.freeWord n) r).setWidth 32)
          (k.next (b.usedWord (Config.freeWord n) r) (b.readWord (Config.freeWord n) r) ++ todo)) := by
  rw [runTurns_goesOn hr _ rfl, State.inCall_hostStep hc hr _ rfl, State.micro, State.inCall_admitted, if_pos ha,
    State.inCall_read hc _ rfl, State.inCall_usedWord, State.inCall_readWord]

/-- WR r, v that is stored. -/
theorem runTurns_wr (hc : s.Runs c) (hr : s.refused = none) (ha : s.admitted = true) (r : Reg) (v : Word) (b' : Block)
    (hb : b.writeReg r v = .stored b') :
    runTurns c cs.length (.host :: ts) (s.inCall c cs b n w (.wr r v :: todo)) =
      runTurns c cs.length ts (s.inCall c cs b' n w todo) := by
  rw [runTurns_goesOn hr _ rfl, State.inCall_hostStep hc hr _ rfl, State.micro, State.inCall_admitted, if_pos ha,
    State.hostWrite, State.inCall_block, hb]
  cases c <;> rfl

/-- WR r, v that is a fault: it is recorded, and the call goes on (R264). -/
theorem runTurns_wr_fault (hc : s.Runs c) (hr : s.refused = none) (ha : s.admitted = true) (r : Reg) (v : Word) (f : BusFault)
    (hb : b.writeReg r v = .fault f) :
    runTurns c cs.length (.host :: ts) (s.inCall c cs b n w (.wr r v :: todo)) =
      runTurns c cs.length ts ((s.recordFault f).inCall c cs b n w todo) := by
  rw [runTurns_goesOn hr _ rfl, State.inCall_hostStep hc hr _ rfl, State.micro, State.inCall_admitted, if_pos ha,
    State.hostWrite, State.inCall_block, hb]
  simp only [State.recordFault, State.inCall_faults]
  split <;> cases c <;> rfl

/-- A poll of BUSY that finds it 0 ends the wait (R170). -/
theorem runTurns_spinBusy (hc : s.Runs c) (hr : s.refused = none) (ha : s.admitted = true) (k : IfId) (i : Nat)
    (hb : (b.iface k).busy = false) :
    runTurns c cs.length (.host :: ts) (s.inCall c cs b n w (.spinBusy k i :: todo)) =
      runTurns c cs.length ts
        (s.inCall c cs b (n + 1) ((b.readWord (Config.freeWord n) (.iface k .cmdreq)).setWidth 32) todo) := by
  have hu : (b.usedWord (Config.freeWord n) (.iface k .cmdreq)).getLsbD 15 = false := by
    simp [Block.usedWord, Block.openBits, Block.midTransfer, Block.known, Iface.stored, cmdreqWord, hb, flag, field]
  rw [runTurns_goesOn hr _ rfl, State.inCall_hostStep hc hr _ rfl, State.micro, State.inCall_admitted, if_pos ha,
    State.inCall_read hc _ rfl, State.inCall_usedWord, hu]
  rfl

/-- A poll of INIT that finds it 0 ends the wait (R170). -/
theorem runTurns_spinInit (hc : s.Runs c) (hr : s.refused = none) (ha : s.admitted = true) (i : Nat) (inInit : Bool)
    (hb : b.initReads = false) :
    runTurns c cs.length (.host :: ts) (s.inCall c cs b n w (.spinInit i inInit :: todo)) =
      runTurns c cs.length ts (s.inCall c cs b (n + 1) ((b.readWord (Config.freeWord n) .cntl).setWidth 32) todo) := by
  have hu : (b.usedWord (Config.freeWord n) .cntl).getLsbD 0 = false := by
    simp [Block.usedWord, Block.openBits, Block.known, cntlWord, hb, flag, field]
  rw [runTurns_goesOn hr _ rfl, State.inCall_hostStep hc hr _ rfl, State.micro, State.inCall_admitted, if_pos ha,
    State.inCall_read hc _ rfl, State.inCall_usedWord, hu]
  rfl

/-- env_clock (R14). -/
theorem runTurns_envClock (hc : s.Runs c) (hr : s.refused = none) (v : Bool) :
    runTurns c cs.length (.host :: ts) (s.inCall c cs b n w (.envClock v :: todo)) =
      runTurns c cs.length ts ((s.envClock v).inCall c cs b n w todo) := by
  rw [runTurns_goesOn hr _ rfl, State.inCall_hostStep hc hr _ rfl, State.micro]
  cases c <;> rfl

/-- env_reset(0) (R300). -/
theorem runTurns_release (hc : s.Runs c) (hr : s.refused = none) :
    runTurns c cs.length (.host :: ts) (s.inCall c cs b n w (.envReset false :: todo)) =
      runTurns c cs.length ts (({ s with rst := false } : State).inCall c cs b n w todo) := by
  rw [runTurns_goesOn hr _ rfl, State.inCall_hostStep hc hr _ rfl, State.micro]
  cases c <;> rfl

/-- env_reset(1) (R300). -/
theorem runTurns_assert (hc : s.Runs c) (hr : s.refused = none) :
    runTurns c cs.length (.host :: ts) (s.inCall c cs b n w (.envReset true :: todo)) =
      runTurns c cs.length ts
        (({ s with rst := true } : State).inCall c cs (Block.afterReset (Config.freeBlock n)) (n + 1) w todo) := by
  rw [runTurns_goesOn hr _ rfl, State.inCall_hostStep hc hr _ rfl, State.micro, State.envReset, if_pos rfl, State.inCall_fresh]
  cases c <;> rfl

/-- route (R233). -/
theorem runTurns_route (hc : s.Runs c) (hr : s.refused = none) (x y : Nat) :
    runTurns c cs.length (.host :: ts) (s.inCall c cs b n w (.route x y :: todo)) =
      runTurns c cs.length ts (s.inCall c cs b n w todo) := by
  rw [runTurns_goesOn hr _ rfl, State.inCall_hostStep hc hr _ rfl, State.micro]
  cases c <;> rfl

/-- A change of the registration (R276, R277). -/
theorem runTurns_setReg (hc : s.Runs c) (hr : s.refused = none) (x : Registration) :
    runTurns c cs.length (.host :: ts) (s.inCall c cs b n w (.setReg x :: todo)) =
      runTurns c cs.length ts (({ s with reg := x } : State).inCall c cs b n w todo) := by
  rw [runTurns_goesOn hr _ rfl, State.inCall_hostStep hc hr _ rfl, State.micro]
  cases c <;> rfl

/-- A change of host_ie (R276, R277). -/
theorem runTurns_hostIe (hc : s.Runs c) (hr : s.refused = none) (x : Bool) :
    runTurns c cs.length (.host :: ts) (s.inCall c cs b n w (.hostIe x :: todo)) =
      runTurns c cs.length ts (({ s with hostIe := x } : State).inCall c cs b n w todo) := by
  rw [runTurns_goesOn hr _ rfl, State.inCall_hostStep hc hr _ rfl, State.micro]
  cases c <;> rfl

/-- A callback that is not made: none is registered, or its class is disabled (R280). -/
theorem runTurns_noCallback (hc : s.Runs c) (hr : s.refused = none) (e : Event) (arg : Word) (cls : Option IrqClass)
    (h : s.reg.cb = none ∨ s.reg.enabled cls = false) :
    runTurns c cs.length (.host :: ts) (s.inCall c cs b n w (.callback e arg cls :: todo)) =
      runTurns c cs.length ts (s.inCall c cs b n w todo) := by
  rw [runTurns_goesOn hr _ rfl, State.inCall_hostStep hc hr _ rfl, State.micro, State.callBack, State.inCall_reg]
  rcases h with h | h
  · rw [h]; exact congrArg _ (State.inCall_continue _ rfl _)
  · cases h' : s.reg.cb
    · exact congrArg _ (State.inCall_continue _ rfl _)
    · simp only [h]; exact congrArg _ (State.inCall_continue _ rfl _)

/-- A callback that issues nothing, over its two turns: its invocation is recorded (R279). -/
theorem runTurns_callback (hc : s.Runs c) (hr : s.refused = none) (e : Event) (arg : Word) (cls : Option IrqClass) (f : Nat)
    (h : s.reg.cb = some f) (he : s.reg.enabled cls = true) (hp : s.callbackPrograms.headD [] = []) :
    runTurns c cs.length (.host :: .host :: ts) (s.inCall c cs b n w (.callback e arg cls :: todo)) =
      runTurns c cs.length ts
        (({ s with
            delivered := s.delivered ++ [{ cb := f, token := s.reg.token, event := e, arg := arg }]
            callbackPrograms := s.callbackPrograms.tail } : State).inCall c cs b n w todo) := by
  have hp' : (s.inCall c cs b n w (.callback e arg cls :: todo)).callbackPrograms = s.callbackPrograms := by
    simp [State.inCall, State.view]
  rw [runTurns_goesOn hr _ rfl, State.inCall_hostStep hc hr _ rfl, State.micro, State.callBack, State.inCall_reg, h]
  simp only [he, if_true, hp', hp]
  have hx : ∀ x : State, x.Runs c → x.refused = none → (x.ctx c).calls = .callback [] :: .proc todo :: cs →
      runTurns c cs.length (.host :: ts) x = runTurns c cs.length ts (x.endCallback c (.proc todo :: cs)) := by
    intro x hxc hxr hxl
    have hrun : x.running = c := by
      rcases hxc with rfl | hxc
      · simp only [State.ctx] at hxl; simp [State.running, hxl]
      · cases c
        · simp [State.running, hxc]
        · simp only [State.ctx] at hxl; simp [State.running, hxl]
    rw [runTurns, State.returned, hxl]
    simp [hxr, State.agentStep, State.hostStep, hrun, hxl, State.callbackStep]
  rw [hx]
  · cases c <;> rfl
  · rcases hc with rfl | hc
    · exact .inl rfl
    · cases c
      · right; simpa [State.inCall, State.view, State.continueCall] using hc
      · exact .inl rfl
  · simpa using hr
  · simp

/-- A turn of XFER_k with its transfer in flight (R160). -/
theorem runTurns_xfer (hr : s.refused = none) (ha : s.admitted = true) (m : Micro) (hm : m.goesOn = true) (k : IfId)
    (hb : (b.iface k).busy = true) :
    runTurns c cs.length (.xfer k :: ts) (s.inCall c cs b n w (m :: todo)) =
      runTurns c cs.length ts (s.inCall c cs (b.transferDone k (b.iface k).cmd) n w (m :: todo)) := by
  rw [runTurns_goesOn hr _ hm, State.agentStep, State.inCall_refused, hr]
  simp only [State.xferStep, State.xferEnabled, State.inCall_block, State.inCall_admitted, hb, ha]
  cases c <;> rfl

/-- A turn of the protocol engine with its step enabled (R266). -/
theorem runTurns_pe (hr : s.refused = none) (ha : s.admitted = true) (m : Micro) (hm : m.goesOn = true) (e : PeEvent)
    (hb : b.peEnabled s.params.peStrict e = true) :
    runTurns c cs.length (.pe e :: ts) (s.inCall c cs b n w (m :: todo)) =
      runTurns c cs.length ts (s.inCall c cs (b.peEffect s.params.peStrict e) n w (m :: todo)) := by
  rw [runTurns_goesOn hr _ hm, State.agentStep, State.inCall_refused, hr]
  simp only [State.peStep, State.inCall_block, State.inCall_admitted, State.inCall_params, hb, ha]
  cases c <;> rfl

/-! ### A whole transfer (R171) -/

/-- The block after transfer(k, n, c) has run without a step of another agent than XFER_k. -/
def Block.transferred (b : Block) (k : IfId) (m : Slot) (num : BitVec 6) (cmd : Byte) : Block :=
  (b.setIface k (({ b.iface k with cmdmsk := cmd } : Iface).start m num)).transferDone k cmd

theorem Block.iface_transferDone_busy (b : Block) (k : IfId) (cmd : Byte) : ((b.transferDone k cmd).iface k).busy = false := by
  unfold Block.transferDone Block.writeTransfer Block.readTransfer
  split <;> simp

/-- A write of an idle interface's register, CMDREQ apart (R152, R153). -/
theorem Block.writeReg_staging {k : IfId} (hb : (b.iface k).busy = false) (x : IfReg) (hx : x ≠ .cmdreq) (v : Word) :
    b.writeReg (.iface k x) v = .stored (b.setIface k ((b.iface k).store x v)) := by
  cases x <;> first | exact absurd rfl hx | (simp only [Block.writeReg, Block.writeIface, hb]; rfl)

/-- A write of an idle interface's CMDREQ with a slot number (R150). -/
theorem Block.writeReg_cmdreq {k : IfId} {v : Word} {m : Slot} (hb : (b.iface k).busy = false)
    (hm : slotOfNumber (v.extractLsb' 0 6).toNat = some m) :
    b.writeReg (.iface k .cmdreq) v = .stored (b.setIface k ((b.iface k).start m (v.extractLsb' 0 6))) := by
  rw [Block.writeReg, Block.writeIface, hb, if_neg (by simp)]
  simp only [hm]

/-- The low byte of a byte widened to a word is that byte. -/
theorem low_byte (cmd : Byte) : (BitVec.setWidth 16 cmd).extractLsb' 0 8 = cmd := by
  apply BitVec.eq_of_toNat_eq
  have := cmd.isLt
  simp
  omega

/-- transfer(k, n, c) on an idle interface, with the transfer completed right after it started: four host turns and one of XFER_k. -/
theorem runTurns_transfer (hc : s.Runs c) (hr : s.refused = none) (ha : s.admitted = true) (k : IfId) (nw : Word) (cmd : Byte)
    (m : Slot) (hb : (b.iface k).busy = false) (hm : slotOfNumber (nw.extractLsb' 0 6).toNat = some m) :
    runTurns c cs.length (.host :: .host :: .host :: .xfer k :: .host :: ts)
        (s.inCall c cs b n w (transferPlan k nw cmd ++ todo)) =
      runTurns c cs.length ts
        (s.inCall c cs (b.transferred k m (nw.extractLsb' 0 6) cmd) (n + 2)
          (((b.transferred k m (nw.extractLsb' 0 6) cmd).readWord (Config.freeWord (n + 1)) (.iface k .cmdreq)).setWidth 32)
          todo) := by
  have h1 : b.writeReg (.iface k .cmdmsk) (cmd.setWidth 16) = .stored (b.setIface k { b.iface k with cmdmsk := cmd }) := by
    rw [Block.writeReg_staging hb _ (by simp), Iface.store, low_byte]
  have h2 : (b.setIface k { b.iface k with cmdmsk := cmd }).writeReg (.iface k .cmdreq) nw =
      .stored (b.setIface k (({ b.iface k with cmdmsk := cmd } : Iface).start m (nw.extractLsb' 0 6))) := by
    rw [Block.writeReg_cmdreq (by simpa using hb) hm]; simp
  simp only [transferPlan, List.cons_append, List.nil_append]
  rw [runTurns_spinBusy hc hr ha k 0 hb, runTurns_wr hc hr ha _ _ _ h1, runTurns_wr hc hr ha _ _ _ h2,
    runTurns_xfer hr ha _ rfl k (by simp [Iface.start])]
  rw [Block.iface_setIface_same]
  exact runTurns_spinBusy hc hr ha k 0 (Block.iface_transferDone_busy _ _ _)

end Sys2Proof.Machine
end

