-- ==== Sys2Proof/Laws/Procedure.lean ====
section
/-! SUPPORT. A procedure as a chain of turns: State.Leads says that the turns ts take a call from the block b and the actions todo to the
block b' and the actions todo', whatever free values are taken; each action has one lemma, and a whole call is their composition. -/

namespace Sys2Proof.Machine

/-! ### What a procedure uses of a read -/

/-- CNTL as a procedure uses it (R38, R148). -/
theorem Block.usedWord_cntl (b : Block) (free : Word) : b.usedWord free .cntl = cntlWord b.cntl b.initReads := by
  simp only [Block.usedWord, Block.openBits, if_true, Block.known]
  apply word_ext; intro i hi
  interval_cases i <;> simp [cntlWord, reservedBits, getElem_flag]

/-- STAT as a procedure uses it (R38, R142). -/
theorem Block.usedWord_stat (b : Block) (free : Word) : b.usedWord free .stat = statWord b.stat := by
  simp only [Block.usedWord, Block.openBits, if_true, Block.known]
  apply word_ext; intro i hi
  interval_cases i <;> simp [statWord, reservedBits, getElem_flag, getElem_field]

/-- A register without open or reserved bits as a procedure uses it. -/
theorem Block.usedWord_closed (b : Block) (free : Word) (r : Reg) (ho : b.openBits r = 0#16) (hr : reservedBits r = 0#16) :
    b.usedWord free r = b.known r := by
  simp only [Block.usedWord, ho, hr, if_true]
  apply word_ext; intro i hi
  interval_cases i <;> simp

/-- An interface register of an idle interface as a procedure uses it (R154). -/
theorem Block.usedWord_iface (b : Block) (free : Word) (k : IfId) (x : IfReg) (hb : (b.iface k).busy = false) :
    b.usedWord free (.iface k x) = (b.iface k).stored x &&& ~~~ reservedBits (.iface k x) := by
  have hm : b.midTransfer k x = false := by simp [Block.midTransfer, hb]
  simp [Block.usedWord, Block.openBits, Block.known, hm]

/-- TEST as a procedure uses it while CNTL.TEST = 1 (R39, R149). -/
theorem Block.usedWord_test (b : Block) (free : Word) (ht : b.cntl.test = true) : b.usedWord free .test = testWord b.test := by
  simp only [Block.usedWord, Block.openBits, ht, if_true, Block.known]
  apply word_ext; intro i hi
  interval_cases i <;> simp [testWord, reservedBits, getElem_flag]

/-! ### Chains -/

/-- The turns ts, taken by a call of context c over the calls cs, lead from block b and actions todo to block b', actions todo' and
the turns ts', whatever values were read and drawn. -/
def State.Leads (s : State) (c : CtxId) (cs : List Activation) (ts : List Turn) (b : Block) (todo : List Micro)
    (ts' : List Turn) (b' : Block) (todo' : List Micro) : Prop :=
  ∀ n w, ∃ n' w', runTurns c cs.length ts (s.inCall c cs b n w todo) = runTurns c cs.length ts' (s.inCall c cs b' n' w' todo')

variable {s : State} {c : CtxId} {cs : List Activation} {ts ts' ts'' : List Turn} {b b' b'' : Block} {todo todo' todo'' : List Micro}

theorem State.Leads.refl : s.Leads c cs ts b todo ts b todo := fun n w => ⟨n, w, rfl⟩

theorem State.Leads.trans (h : s.Leads c cs ts b todo ts' b' todo') (g : s.Leads c cs ts' b' todo' ts'' b'' todo'') :
    s.Leads c cs ts b todo ts'' b'' todo'' := fun n w => by
  obtain ⟨n', w', e⟩ := h n w
  obtain ⟨n'', w'', e'⟩ := g n' w'
  exact ⟨n'', w'', e.trans e'⟩

/-- A read, whose following actions l are the same for every value of its open bits. -/
theorem State.leads_rd (hc : s.Runs c) (hs : Safety.Ready s) {r : Reg} {k : Cont} {l : List Micro}
    (hl : ∀ free, k.next (b.usedWord free r) (b.readWord free r) = l) :
    s.Leads c cs (.host :: ts) b (.rd r k :: todo) ts (b.afterRead r) (l ++ todo) := fun n w =>
  ⟨_, _, by rw [runTurns_rd hc hs.2.2 (State.admitted_iff.2 ⟨hs.1, hs.2.1⟩), hl]⟩

/-- A write that is stored. -/
theorem State.leads_wr (hc : s.Runs c) (hs : Safety.Ready s) {r : Reg} {v : Word} (hb : b.writeReg r v = .stored b') :
    s.Leads c cs (.host :: ts) b (.wr r v :: todo) ts b' todo := fun n w =>
  ⟨n, w, by rw [runTurns_wr hc hs.2.2 (State.admitted_iff.2 ⟨hs.1, hs.2.1⟩) _ _ _ hb]⟩

/-- A wait for BUSY that is over at once. -/
theorem State.leads_spinBusy (hc : s.Runs c) (hs : Safety.Ready s) {k : IfId} {i : Nat} (hb : (b.iface k).busy = false) :
    s.Leads c cs (.host :: ts) b (.spinBusy k i :: todo) ts b todo := fun _ _ =>
  ⟨_, _, by rw [runTurns_spinBusy hc hs.2.2 (State.admitted_iff.2 ⟨hs.1, hs.2.1⟩) k i hb]⟩

/-- A wait for INIT that is over at once. -/
theorem State.leads_spinInit (hc : s.Runs c) (hs : Safety.Ready s) {i : Nat} {inInit : Bool} (hb : b.initReads = false) :
    s.Leads c cs (.host :: ts) b (.spinInit i inInit :: todo) ts b todo := fun _ _ =>
  ⟨_, _, by rw [runTurns_spinInit hc hs.2.2 (State.admitted_iff.2 ⟨hs.1, hs.2.1⟩) i inInit hb]⟩

/-- The acknowledgment of a released INIT, while the call stands before an action. -/
theorem State.leads_ack (hs : Safety.Ready s) {m : Micro} (hm : m.goesOn = true) (hb : b.initPending = true) :
    s.Leads c cs (.pe .initAck :: ts) b (m :: todo) ts { b with initPending := false } (m :: todo) := fun n w =>
  ⟨n, w, by rw [runTurns_pe hs.2.2 (State.admitted_iff.2 ⟨hs.1, hs.2.1⟩) m hm .initAck hb]; rfl⟩

/-- A transfer on an idle interface, completed right after it started. -/
theorem State.leads_transfer (hc : s.Runs c) (hs : Safety.Ready s) {k : IfId} {nw : Word} {cmd : Byte} {m : Slot}
    (hb : (b.iface k).busy = false) (hm : slotOfNumber (nw.extractLsb' 0 6).toNat = some m) :
    s.Leads c cs (Safety.transferTurns k ++ ts) b (transferPlan k nw cmd ++ todo) ts
      (b.transferred k m (nw.extractLsb' 0 6) cmd) todo := fun _ _ =>
  ⟨_, _, runTurns_transfer hc hs.2.2 (State.admitted_iff.2 ⟨hs.1, hs.2.1⟩) k nw cmd m hb hm⟩

/-- A staging write of an idle interface. -/
theorem State.leads_staging (hc : s.Runs c) (hs : Safety.Ready s) {k : IfId} {x : IfReg} {v : Word} (hx : x ≠ .cmdreq)
    (hb : (b.iface k).busy = false) :
    s.Leads c cs (.host :: ts) b (.wr (.iface k x) v :: todo) ts (b.setIface k ((b.iface k).store x v)) todo :=
  State.leads_wr hc hs (Block.writeReg_staging hb x hx v)

/-- A call whose plan leads to its return has returned. -/
theorem State.Leads.returned {start : State → State} {plan : List Micro} {r : Ret} (hp : start s = s.startPlan plan)
    (h : s.Leads s.running (s.ctx s.running).calls s.turns s.block plan ts' b' (.ret r :: todo')) :
    ∃ t, Host.Outcome.next (runCall start s) = (.next t : Host.Outcome State Fault Refusal) ∧ Safety.Returned s b' ts' r t := by
  obtain ⟨n, w, e⟩ := h s.fresh (s.ctx s.running).rdata
  exact ⟨_, congrArg _ ((runCall_plan plan start hp).trans (e.trans (runTurns_ret r))), n, w, rfl⟩

end Sys2Proof.Machine
end

