-- ==== Sys2Proof/Laws/Plans.lean ====
section
/-! SUPPORT. The procedures' plans as chains of turns (State.Leads): the read-modify-writes, ENABLE, the modes, the templates, the bit rate,
filters and frames written and read. -/

namespace Sys2Proof.Machine

/-- The write of SET_CNTL as a change of the block (R230). -/
theorem cntl_set (b : Block) (m : Word) : b.writeCntl ((cntlWord b.cntl b.initReads &&& 0x00EF#16) ||| m) = { b with
        cntl := { test := b.cntl.test || m.getLsbD 7, cce := b.cntl.cce || m.getLsbD 6,
                  dar := b.cntl.dar || m.getLsbD 5, eie := b.cntl.eie || m.getLsbD 3,
                  sie := b.cntl.sie || m.getLsbD 2, ie := b.cntl.ie || m.getLsbD 1,
                  init := b.cntl.init || b.initPending || m.getLsbD 0 }
        initPending := false } := by
  simp only [Block.writeCntl, BitVec.getLsbD_or, BitVec.getLsbD_and, cntlWord, getLsbD_flag, Block.initReads]
  cases b.cntl.init <;> cases b.initPending <;> cases m.getLsbD 0 <;> simp

/-- The write of CLR_CNTL as a change of the block (R230). -/
theorem cntl_clr (b : Block) (m : Word) : b.writeCntl ((cntlWord b.cntl b.initReads &&& 0x00EF#16) &&& ~~~ m) = { b with
        cntl := { test := b.cntl.test && !m.getLsbD 7, cce := b.cntl.cce && !m.getLsbD 6,
                  dar := b.cntl.dar && !m.getLsbD 5, eie := b.cntl.eie && !m.getLsbD 3,
                  sie := b.cntl.sie && !m.getLsbD 2, ie := b.cntl.ie && !m.getLsbD 1,
                  init := (b.cntl.init || b.initPending) && !m.getLsbD 0 }
        initPending := (b.cntl.init || b.initPending) && m.getLsbD 0 } := by
  simp only [Block.writeCntl, BitVec.getLsbD_or, BitVec.getLsbD_and, BitVec.getLsbD_not, cntlWord, getLsbD_flag, Block.initReads]
  cases b.cntl.init <;> cases b.initPending <;> cases m.getLsbD 0 <;> simp

/-- A block whose INIT reads 0 is enabled already (R231). -/
theorem enabled_self {b : Block} (h : b.initReads = false) : Safety.enabled b = b := by
  obtain ⟨⟨_, _, _, _, _, _, _⟩, _⟩ := b
  simp [Block.initReads] at h
  simp [Safety.enabled, h]

section
variable {s : State} {c : CtxId} {cs : List Activation} {ts ts' ts'' : List Turn} {b b' b'' : Block} {todo todo' todo'' : List Micro}

/-- SET_CNTL as a chain (R230). -/
theorem leads_setCntl (hc : s.Runs c) (hs : Safety.Ready s) (m : Word) (hb : b.writeCntl ((cntlWord b.cntl b.initReads &&& 0x00EF#16) ||| m) = b') :
    s.Leads c cs (.host :: .host :: ts) b (setCntlPlan m ++ todo) ts b' todo :=
  (State.leads_rd hc hs (l := [.wr .cntl ((cntlWord b.cntl b.initReads &&& 0x00EF#16) ||| m)]) (by intro f; simp only [Cont.next, Block.usedWord_cntl])).trans
    (State.leads_wr hc hs (by rw [← hb]; rfl))

/-- CLR_CNTL as a chain (R230). -/
theorem leads_clrCntl (hc : s.Runs c) (hs : Safety.Ready s) (m : Word) (hb : b.writeCntl ((cntlWord b.cntl b.initReads &&& 0x00EF#16) &&& ~~~ m) = b') :
    s.Leads c cs (.host :: .host :: ts) b (clrCntlPlan m ++ todo) ts b' todo :=
  (State.leads_rd hc hs (l := [.wr .cntl ((cntlWord b.cntl b.initReads &&& 0x00EF#16) &&& ~~~ m)]) (by intro f; simp only [Cont.next, Block.usedWord_cntl])).trans
    (State.leads_wr hc hs (by rw [← hb]; rfl))

/-- CLR_TXOK as a chain (R203). -/
theorem leads_clrTxok (hc : s.Runs c) (hs : Safety.Ready s) :
    s.Leads c cs (.host :: .host :: ts) b (clrTxokPlan ++ todo) ts { b with stat := { b.stat with txok := false }, statInt := false } todo :=
  (State.leads_rd hc hs (l := [.wr .stat (statWord b.stat &&& 0xFFF7#16)]) (by intro f; simp only [Cont.next, Block.usedWord_stat])).trans
    (State.leads_wr hc hs (by
      simp only [Block.writeReg, Block.afterRead, if_true, Block.writeStat, WriteOut.stored.injEq, Block.mk.injEq, Stat.mk.injEq]
      simp only [BitVec.getLsbD_and, statWord, BitVec.getLsbD_or, getLsbD_flag, getLsbD_field]
      refine ⟨trivial, ⟨trivial, trivial, trivial, by simp, by simp, ?_⟩, trivial, trivial, trivial, trivial, trivial, trivial, trivial, trivial, trivial⟩
      apply BitVec.eq_of_getLsbD_eq; intro i hi
      interval_cases i <;> simp [getElem_flag, getElem_field]))

/-- CLR_RXOK as a chain (R218). -/
theorem leads_clrRxok (hc : s.Runs c) (hs : Safety.Ready s) :
    s.Leads c cs (.host :: .host :: ts) b (clrRxokPlan ++ todo) ts { b with stat := { b.stat with rxok := false }, statInt := false } todo :=
  (State.leads_rd hc hs (l := [.wr .stat (statWord b.stat &&& 0xFFEF#16)]) (by intro f; simp only [Cont.next, Block.usedWord_stat])).trans
    (State.leads_wr hc hs (by
      simp only [Block.writeReg, Block.afterRead, if_true, Block.writeStat, WriteOut.stored.injEq, Block.mk.injEq, Stat.mk.injEq]
      simp only [BitVec.getLsbD_and, statWord, BitVec.getLsbD_or, getLsbD_flag, getLsbD_field]
      refine ⟨trivial, ⟨trivial, trivial, trivial, by simp, by simp, ?_⟩, trivial, trivial, trivial, trivial, trivial, trivial, trivial, trivial, trivial⟩
      apply BitVec.eq_of_getLsbD_eq; intro i hi
      interval_cases i <;> simp [getElem_flag, getElem_field]))

/-- ENABLE of a controller whose INIT reads 1, up to its wait (R231). -/
theorem leads_initRelease (hc : s.Runs c) (hs : Safety.Ready s) (hi : b.initReads = true) :
    s.Leads c cs (.host :: .host :: ts) b (enablePlan ++ todo) ts (Safety.released b) (.spinInit 0 false :: todo) := by
  refine (State.leads_rd hc hs (l := [.wr .cntl (cntlWord b.cntl true &&& 0x00EE#16), .spinInit 0 false]) (by intro f; simp [Cont.next, Block.usedWord_cntl, cntlWord, hi, getElem_flag])).trans ?_
  refine State.leads_wr hc hs (b' := Safety.released b) ?_
  have hp : (b.cntl.init || b.initPending) = true := hi
  simp only [Block.writeReg, Block.writeCntl, BitVec.getLsbD_and, cntlWord, BitVec.getLsbD_or, getLsbD_flag, Block.afterRead, Safety.released]
  cases h1 : b.cntl.init <;> cases h2 : b.initPending <;> simp_all

/-- ENABLE as a chain, the acknowledgment coming at once (R231). -/
theorem leads_enable (hc : s.Runs c) (hs : Safety.Ready s) (_ht : ∃ m l, todo = m :: l) :
    s.Leads c cs (Safety.enableTurns b ++ ts) b (enablePlan ++ todo) ts (Safety.enabled b) todo := by
  unfold Safety.enableTurns
  cases hi : b.initReads with
  | false =>
    rw [enabled_self hi]
    exact State.leads_rd hc hs (l := []) (by intro f; simp [Cont.next, Block.usedWord_cntl, cntlWord, hi, getElem_flag])
  | true => exact (leads_initRelease hc hs hi).trans ((State.leads_ack hs rfl rfl).trans (State.leads_spinInit hc hs rfl))

/-- A poll of CNTL that finds INIT set (R170). -/
theorem leads_pollInit (hc : s.Runs c) (hs : Safety.Ready s) {i : Nat} (hb : b.initReads = true) :
    s.Leads c cs (.host :: ts) b (.spinInit i false :: todo) ts b
      (spinNext s.params.maxSpin false (.spinInit (i + 1) false) (i + 1) [.ret .stall] todo) := fun n w => by
  have hu : (b.usedWord (Config.freeWord n) .cntl).getLsbD 0 = true := by
    rw [Block.usedWord_cntl]; simp [cntlWord, hb, getElem_flag]
  refine ⟨n + 1, (b.readWord (Config.freeWord n) .cntl).setWidth 32, ?_⟩
  rw [runTurns_goesOn hs.2.2 _ rfl, State.inCall_hostStep hc hs.2.2 _ rfl, State.micro, State.inCall_admitted,
    if_pos (State.admitted_iff.2 ⟨hs.1, hs.2.1⟩), State.inCall_read hc _ rfl, State.inCall_usedWord, hu, State.inCall_params,
    show b.afterRead .cntl = b from rfl, Bool.not_true]
  simp

/-- Any number of failing polls of CNTL within the bound (R170). -/
theorem leads_pollsInit (hc : s.Runs c) (hs : Safety.Ready s) (hb : b.initReads = true) : ∀ (j i : Nat),
    (∀ m, s.params.maxSpin = some m → 0 < j → i + j < m) →
    s.Leads c cs (Safety.hosts j ++ ts) b (.spinInit i false :: todo) ts b (.spinInit (i + j) false :: todo)
  | 0, i, _ => .refl
  | j + 1, i, h => by
    refine (leads_pollInit hc hs hb).trans ?_
    have : spinNext s.params.maxSpin false (.spinInit (i + 1) false) (i + 1) [.ret .stall] todo = .spinInit (i + 1) false :: todo := by
      unfold spinNext
      cases hm : s.params.maxSpin with
      | none => rfl
      | some m => have := h m hm (by omega); simp; omega
    rw [this, show i + (j + 1) = i + 1 + j by omega]
    exact leads_pollsInit hc hs hb j (i + 1) (fun m hm _ => by have := h m hm (by omega); omega)

/-- A wait for INIT that reaches the bound: the call returns Stall (R170, R263). -/
theorem leads_stallInit (hc : s.Runs c) (hs : Safety.Ready s) {m : Nat} (hm : s.params.maxSpin = some m) (hb : b.initReads = true) :
    s.Leads c cs (Safety.stallTurns m ++ ts) b (.spinInit 0 false :: todo) ts b [.ret .stall] := by
  rw [Safety.stallTurns, show max m 1 = (m - 1) + 1 by omega, Safety.hosts, List.replicate_succ', List.append_assoc]
  refine (leads_pollsInit hc hs hb (m - 1) 0 ?_).trans ?_
  · intro m' hm' _; rw [hm] at hm'; cases hm'; omega
  · refine (leads_pollInit hc hs hb).trans ?_
    have : spinNext s.params.maxSpin false (.spinInit (0 + (m - 1) + 1) false) (0 + (m - 1) + 1) [.ret .stall] todo = [.ret .stall] := by
      simp [spinNext, hm]; omega
    rw [this]; exact .refl

/-- While a release of INIT waits, CNTL.INIT reads 1 (R42, R148). -/
theorem initReads_released (b : Block) : (Safety.released b).initReads = true := rfl

/-- ENABLE that stalls: the call it stands in returns Stall, with INIT released (R231, R263). -/
theorem leads_enableStall (hc : s.Runs c) (hs : Safety.Ready s) {m : Nat} (hm : s.params.maxSpin = some m) (hi : b.initReads = true) :
    s.Leads c cs (Safety.hosts 2 ++ Safety.stallTurns m ++ ts) b (enablePlan ++ todo) ts (Safety.released b) [.ret .stall] := by
  rw [List.append_assoc]
  exact (leads_initRelease hc hs hi).trans (leads_stallInit hc hs hm rfl)
end


/-- A write of LBACK and SILENT alone while CNTL.TEST = 1 is stored (R146). -/
theorem writeTest_ok {b : Block} (h : b.cntl.test = true) {v : Word} {l m : Bool} (hv : v = flag 4 l ||| flag 3 m) :
    b.writeReg .test v = .stored { b with test := { lback := l, silent := m } } := by
  subst hv; simp [Block.writeReg, Block.writeTest, h, getElem_flag]

section
variable {s : State} {c : CtxId} {cs : List Activation} {ts ts' ts'' : List Turn} {b b' b'' : Block} {todo todo' todo'' : List Micro}

/-- One host turn more. -/
theorem hosts_succ (n : Nat) : Safety.hosts (n + 1) = .host :: Safety.hosts n := rfl
/-- No host turn. -/
theorem hosts_zero : Safety.hosts 0 = [] := rfl

/-- The block after ENABLE of a block that differs only in other registers. -/
theorem leads_enable_of (hc : s.Runs c) (hs : Safety.Ready s) (_ht : ∃ m l, todo = m :: l) (h : b.initReads = b'.initReads) :
    s.Leads c cs (Safety.enableTurns b' ++ ts) b (enablePlan ++ todo) ts (Safety.enabled b) todo := by
  have : Safety.enableTurns b' = Safety.enableTurns b := by simp [Safety.enableTurns, h]
  rw [this]; exact leads_enable hc hs _ht

/-- SET_CNTL of TEST alone (R237, R239). -/
theorem leads_setTest (hc : s.Runs c) (hs : Safety.Ready s) :
    s.Leads c cs (.host :: .host :: ts) b (setCntlPlan 0x0080#16 ++ todo) ts
      { b with cntl := { b.cntl with test := true, init := b.initReads }, initPending := false } todo :=
  leads_setCntl hc hs _ (by rw [cntl_set]; simp [Block.initReads])

/-- The TEST writes of a test mode as a chain, up to ENABLE (R237). -/
theorem leads_testBits (hc : s.Runs c) (hs : Safety.Ready s) {bits : Word} {l m : Bool} (hb : bits = flag 4 l ||| flag 3 m) :
    s.Leads c cs (Safety.hosts 4 ++ ts) b (testModePlan bits) ts
      { b with cntl := { b.cntl with test := true, init := b.initReads }, initPending := false, test := { lback := l, silent := m } }
      (enablePlan ++ [.ret (.value 1)]) := by
  simp only [Safety.hosts, List.replicate, List.cons_append, List.nil_append, testModePlan, List.append_assoc]
  refine (leads_setTest hc hs).trans ?_
  refine (State.leads_wr hc hs (writeTest_ok (by rfl) (l := false) (m := false) (by decide))).trans ?_
  exact State.leads_wr hc hs (writeTest_ok (by rfl) hb)

/-- The test-mode part of set_mode as a chain (R237). -/
theorem leads_testMode (hc : s.Runs c) (hs : Safety.Ready s) {bits : Word} {l m : Bool} (hb : bits = flag 4 l ||| flag 3 m) :
    s.Leads c cs (Safety.hosts 4 ++ Safety.enableTurns b ++ ts) b (testModePlan bits) ts
      { Safety.enabled b with cntl := { (Safety.enabled b).cntl with test := true }, test := { lback := l, silent := m } }
      [.ret (.value 1)] := by
  rw [List.append_assoc]
  exact (leads_testBits hc hs hb).trans (leads_enable_of hc hs ⟨_, _, rfl⟩ (by simp [Block.initReads]))
end
section
variable {s : State} {c : CtxId} {cs : List Activation} {ts ts' ts'' : List Turn} {b b' b'' : Block} {todo todo' todo'' : List Micro}

/-- A poll of BUSY that finds it set (R170). -/
theorem leads_pollBusy (hc : s.Runs c) (hs : Safety.Ready s) {k : IfId} {i : Nat} (hb : (b.iface k).busy = true) :
    s.Leads c cs (.host :: ts) b (.spinBusy k i :: todo) ts b
      (spinNext s.params.maxSpin false (.spinBusy k (i + 1)) (i + 1) [.ret .stall] todo) := fun n w => by
  have hu : (b.usedWord (Config.freeWord n) (.iface k .cmdreq)).getLsbD 15 = true := by
    have hm : b.midTransfer k .cmdreq = false := by simp [Block.midTransfer]
    simp only [Block.usedWord, Block.openBits, Block.known, hm, Bool.false_eq_true, if_false, if_true, BitVec.getLsbD_and,
      Iface.stored, cmdreqWord, BitVec.getLsbD_or, getLsbD_flag, hb]
    rw [show (~~~ reservedBits (.iface k .cmdreq)).getLsbD 15 = true by cases k <;> decide]
    simp
  refine ⟨n + 1, (b.readWord (Config.freeWord n) (.iface k .cmdreq)).setWidth 32, ?_⟩
  rw [runTurns_goesOn hs.2.2 _ rfl, State.inCall_hostStep hc hs.2.2 _ rfl, State.micro, State.inCall_admitted,
    if_pos (State.admitted_iff.2 ⟨hs.1, hs.2.1⟩), State.inCall_read hc _ rfl, State.inCall_usedWord, hu, State.inCall_params, show b.afterRead (.iface k .cmdreq) = b by simp [Block.afterRead], Bool.not_true]

/-- The completion of the transfer in flight, while the call stands before an action (R160). -/
theorem leads_xfer (hs : Safety.Ready s) {m : Micro} (hm : m.goesOn = true) {k : IfId} (hb : (b.iface k).busy = true) :
    s.Leads c cs (.xfer k :: ts) b (m :: todo) ts (b.transferDone k (b.iface k).cmd) (m :: todo) := fun n w =>
  ⟨n, w, by rw [runTurns_xfer hs.2.2 (State.admitted_iff.2 ⟨hs.1, hs.2.1⟩) m hm k hb]⟩

/-- Any number of failing polls within the bound (R170). -/
theorem leads_polls (hc : s.Runs c) (hs : Safety.Ready s) {k : IfId} (hb : (b.iface k).busy = true) : ∀ (j i : Nat),
    (∀ m, s.params.maxSpin = some m → 0 < j → i + j < m) →
    s.Leads c cs (Safety.hosts j ++ ts) b (.spinBusy k i :: todo) ts b (.spinBusy k (i + j) :: todo)
  | 0, i, _ => .refl
  | j + 1, i, h => by
    refine (leads_pollBusy hc hs hb).trans ?_
    have : spinNext s.params.maxSpin false (.spinBusy k (i + 1)) (i + 1) [.ret .stall] todo = .spinBusy k (i + 1) :: todo := by
      unfold spinNext
      cases hm : s.params.maxSpin with
      | none => rfl
      | some m => have := h m hm (by omega); simp; omega
    rw [this, show i + (j + 1) = i + 1 + j by omega]
    exact leads_polls hc hs hb j (i + 1) (fun m hm _ => by have := h m hm (by omega); omega)
end

/-- A slot number has its place (R150). -/
theorem slotOf_some {x : Nat} {n : Slot} (h : x = slotNumber n) : slotOfNumber x = some n := by
  have := n.isLt
  unfold slotNumber at h; unfold slotOfNumber; rw [dif_pos (by omega)]; congr 1; apply Fin.ext; simp only; omega


/-- The staging registers of g are those of f. -/
def SameStaging (f g : Iface) : Prop :=
  g = { f with busy := g.busy, slot := g.slot, cmd := g.cmd, cmdmsk := g.cmdmsk, msgnum := g.msgnum }

/-- A write transfer uses the staging registers only (R161 to R166). -/
theorem SameStaging.written {f g : Iface} (h : SameStaging f g) (o : Obj) (p : Parts) : o.written g p = o.written f p := by
  rw [h]; rfl

/-- Same staging registers, twice. -/
theorem SameStaging.trans {f g k : Iface} (h : SameStaging f g) (h' : SameStaging g k) : SameStaging f k := by
  unfold SameStaging at *; rw [h', h]

/-- What a whole write transfer leaves (R171). -/
theorem transferred_wr (b : Block) (k : IfId) (m : Slot) (num : BitVec 6) (cmd : Byte) (hc : cmd.getLsbD 7 = true) :
    b.transferred k m num cmd = (b.setObj m ((b.obj m).written (b.iface k) (partsOf cmd))).setIface k
      { b.iface k with busy := false, slot := m, cmd := cmd, cmdmsk := cmd, msgnum := num } := by
  unfold Block.transferred Block.transferDone
  rw [if_pos hc]
  cases k <;> rfl

/-- What a whole read transfer leaves (R171). -/
theorem transferred_rd (b : Block) (k : IfId) (m : Slot) (num : BitVec 6) (cmd : Byte) (hc : cmd.getLsbD 7 = false) :
    b.transferred k m num cmd = (b.setObj m ((b.obj m).cleared (partsOf cmd))).setIface k
      { ({ b.iface k with slot := m, cmd := cmd, cmdmsk := cmd, msgnum := num } : Iface).loaded (b.obj m) (partsOf cmd) with busy := false } := by
  unfold Block.transferred Block.transferDone
  rw [hc]
  simp only [Bool.false_eq_true, if_false, Block.readTransfer]
  have : ∀ (f : Iface) (o : Obj) (p : Parts), ({ (({ f with busy := true } : Iface).loaded o p) with busy := false } : Iface) = { f.loaded o p with busy := false } := by
    intro f o p
    simp only [Iface.loaded_slot, Iface.loaded_cmd, Iface.loaded_msgnum, Iface.loaded_cmdmsk, Iface.loaded_msk1, Iface.loaded_msk2, Iface.loaded_arb1, Iface.loaded_arb2, Iface.loaded_mctrl, Iface.loaded_da1, Iface.loaded_da2, Iface.loaded_db1, Iface.loaded_db2]
  cases k
  · exact congrArg (fun f => (b.setObj m ((b.obj m).cleared (partsOf cmd))).setIface .if1 f) (this { b.iface .if1 with slot := m, cmd := cmd, cmdmsk := cmd, msgnum := num } (b.obj m) (partsOf cmd))
  · exact congrArg (fun f => (b.setObj m ((b.obj m).cleared (partsOf cmd))).setIface .if2 f) (this { b.iface .if2 with slot := m, cmd := cmd, cmdmsk := cmd, msgnum := num } (b.obj m) (partsOf cmd))

/-- The word written to CMDREQ for a slot names it (R150). -/
theorem slotWord_slot {n : Nat} {m : Slot} (h : n = slotNumber m) : slotOfNumber ((slotWord n).extractLsb' 0 6).toNat = some m := by
  apply slotOf_some
  have := m.isLt
  unfold slotNumber at h
  simp [slotWord, slotNumber, h]; omega

section
variable {s : State} {c : CtxId} {cs : List Activation} {ts ts' ts'' : List Turn} {b b' b'' : Block} {todo todo' todo'' : List Micro}

/-- A staging write of idle interface 1. -/
theorem leads_staging1 (hc : s.Runs c) (hs : Safety.Ready s) {x : IfReg} {v : Word} (hx : x ≠ .cmdreq) (hb : b.if1.busy = false) :
    s.Leads c cs (.host :: ts) b (.wr (.iface .if1 x) v :: todo) ts { b with if1 := b.if1.store x v } todo :=
  State.leads_staging (k := .if1) hc hs hx hb

/-- The five staging writes before a transfer (R193, R204, R232). -/
theorem leads_parts (hc : s.Runs c) (hs : Safety.Ready s) (m1 m2 a1 a2 v : Word) (hb : b.if1.busy = false) :
    s.Leads c cs (Safety.hosts 5 ++ ts) b
      (.wr (.iface .if1 .msk1) m1 :: .wr (.iface .if1 .msk2) m2 :: .wr (.iface .if1 .arb1) a1 :: .wr (.iface .if1 .arb2) a2 ::
        .wr (.iface .if1 .mctrl) v :: todo) ts
      { b with if1 := { b.if1 with msk1 := m1, msk2 := m2 &&& 0xDFFF#16, arb1 := a1, arb2 := a2, mctrl := v &&& 0xFF8F#16 } } todo :=
  ((((leads_staging1 hc hs (by decide) hb).trans
    (leads_staging1 hc hs (by decide) (by exact hb))).trans
    (leads_staging1 hc hs (by decide) (by exact hb))).trans
    (leads_staging1 hc hs (by decide) (by exact hb))).trans
    (leads_staging1 hc hs (by decide) (by exact hb))

/-- A write transfer through interface 1 to a slot, as a chain (R171); the interface it leaves does not depend on the run. -/
theorem leads_write (b : Block) {n : Nat} {m : Slot} {cmd : Byte} (hn : n = slotNumber m)
    (hcmd : cmd.getLsbD 7 = true) (hb : b.if1.busy = false) :
    ∃ f, SameStaging b.if1 f ∧ f.busy = false ∧
      ∀ {s : State} {c : CtxId} {cs : List Activation} {ts : List Turn} {todo : List Micro}, s.Runs c → Safety.Ready s →
      s.Leads c cs (Safety.transferTurns .if1 ++ ts) b (transferPlan .if1 (slotWord n) cmd ++ todo) ts
        { b.setObj m ((b.obj m).written b.if1 (partsOf cmd)) with if1 := f } todo := by
  refine ⟨_, ?_, ?_, by
    intro s c cs ts todo hc hs
    have := State.leads_transfer (ts := ts) (cs := cs) (todo := todo) (cmd := cmd) hc hs (k := .if1) hb (slotWord_slot hn)
    rw [transferred_wr _ _ _ _ _ hcmd] at this; exact this⟩
  · rfl
  · rfl

/-- The transfers of install_templates to a range of slots (R232). -/
theorem leads_templateTransfers (hc : s.Runs c) (hs : Safety.Ready s) : ∀ (count n : Nat) (b : Block), 1 ≤ n → n + count ≤ 33 → b.if1.busy = false →
    ∃ b', s.Leads c cs ((List.replicate count (Safety.transferTurns .if1)).flatten ++ ts) b (templateTransfers n count ++ todo) ts b' todo ∧
      SameStaging b.if1 b'.if1 ∧ b'.if1.busy = false ∧
      (∀ m, b'.obj m = if n ≤ slotNumber m ∧ slotNumber m < n + count then (b.obj m).written b.if1 (partsOf cmdFilterWr) else b.obj m) ∧
      { b' with if1 := b.if1, objs := b.objs } = b
  | 0, n, b, _, _, hb => ⟨b, .refl, rfl, hb, fun m => by rw [if_neg (by omega)], rfl⟩
  | count + 1, n, b, h1, h2, hb => by
    obtain ⟨q, hq⟩ : ∃ q : Slot, n = slotNumber q := ⟨⟨n - 1, by omega⟩, by simp [slotNumber]; omega⟩
    obtain ⟨f, hf, hfb, hl⟩ := leads_write b (cmd := cmdFilterWr) hq (by decide) hb
    obtain ⟨b', hl', hst, hbb, hobj, hrest⟩ := leads_templateTransfers hc hs count (n + 1)
      { b.setObj q ((b.obj q).written b.if1 (partsOf cmdFilterWr)) with if1 := f } (by omega) (by omega) hfb
    refine ⟨b', ?_, hf.trans hst, hbb, fun m => ?_, ?_⟩
    · have := (hl hc hs).trans hl'
      simpa [List.replicate_succ, templateTransfers, List.append_assoc] using this
    · rw [hobj]
      by_cases hm : m = q
      · subst hm
        rw [if_neg (by omega), if_pos (by omega)]
        exact Block.obj_setObj_same _ _ _
      · have hm' : slotNumber m ≠ n := by
          intro e; apply hm; apply Fin.ext; simp only [slotNumber] at e hq; omega
        have e1 : Block.obj { b.setObj q ((b.obj q).written b.if1 (partsOf cmdFilterWr)) with if1 := f } m = b.obj m :=
          Block.obj_setObj_other _ hm _
        rw [e1]
        by_cases hr : n + 1 ≤ slotNumber m ∧ slotNumber m < n + 1 + count
        · rw [if_pos hr, if_pos (by omega)]; exact hf.written _ _
        · rw [if_neg hr, if_neg (by omega)]
    · have := congrArg (fun x : Block => ({ x with if1 := b.if1, objs := b.objs } : Block)) hrest
      exact this
end

section
variable {s : State} {c : CtxId} {cs : List Activation} {ts ts' ts'' : List Turn} {b b' b'' : Block} {todo todo' todo'' : List Micro}

/-- The object a template write leaves (R232). -/
theorem written_template (o : Obj) (f : Iface) (valid : Bool) (n : Slot) (h1 : f.msk1 = 0#16) (h2 : f.msk2 = 0#16) (h3 : f.arb1 = 0#16)
    (h4 : f.arb2 = templateArb2 valid) (h5 : f.mctrl = if n.val = 31 then 0x1080#16 else 0x1088#16) :
    o.written f (partsOf cmdFilterWr) = Safety.template valid n o := by
  have hp : partsOf cmdFilterWr = { mask := true, arb := true, ctrl := true, clrIntPnd := false, txRqstNewDat := false, dataA := false, dataB := false } := by decide
  rw [hp]
  simp only [Obj.written, Bool.false_eq_true, if_false, if_true, Obj.putMask, Obj.putArb, Obj.putCtrl, h1, h2, h3, h4, h5, Safety.template, Obj.mk.injEq]
  by_cases hn : n.val = 31 <;> cases valid <;> simp [hn] <;> decide

/-- install_templates as a chain (R232). -/
theorem leads_templates (hc : s.Runs c) (hs : Safety.Ready s) (hb : b.if1.busy = false) (valid : Bool) :
    ∃ b', s.Leads c cs (Safety.templateTurns ++ ts) b (templatesPlan valid ++ todo) ts b' todo ∧
      (∀ n, b'.obj n = Safety.template valid n (b.obj n)) ∧ b'.if1.busy = false ∧ { b' with if1 := b.if1, objs := b.objs } = b := by
  let f5 : Iface := { b.if1 with msk1 := 0#16, msk2 := 0x0000#16 &&& 0xDFFF#16, arb1 := 0#16, arb2 := templateArb2 valid, mctrl := filterMctrl &&& 0xFF8F#16 }
  obtain ⟨b1, hl1, hst1, hb1, hobj1, hrest1⟩ := leads_templateTransfers (s := s) (c := c) (cs := cs)
     (ts := Safety.hosts 1 ++ Safety.transferTurns .if1 ++ ts)
     (todo := [.wr (.iface .if1 .mctrl) 0x1080#16] ++ transferPlan .if1 (slotWord 32) cmdFilterWr ++ todo) hc hs 31 1 { b with if1 := f5 } (by omega) (by omega) hb
  have h6 : s.Leads c cs (.host :: (Safety.transferTurns .if1 ++ ts)) b1 (.wr (.iface .if1 .mctrl) 0x1080#16 :: (transferPlan .if1 (slotWord 32) cmdFilterWr ++ todo)) (Safety.transferTurns .if1 ++ ts)
      { b1 with if1 := { b1.if1 with mctrl := 0x1080#16 } } (transferPlan .if1 (slotWord 32) cmdFilterWr ++ todo) :=
    leads_staging1 hc hs (by decide) hb1
  obtain ⟨f, hf, hfb, hl⟩ := leads_write (m := 31) (n := 32) (cmd := cmdFilterWr) { b1 with if1 := { b1.if1 with mctrl := 0x1080#16 } }
     rfl (by decide) hb1
  let b2 : Block := { b1 with if1 := { b1.if1 with mctrl := 0x1080#16 } }
  refine ⟨{ b2.setObj 31 ((b2.obj 31).written b2.if1 (partsOf cmdFilterWr)) with if1 := f }, ?_, ?_, hfb, ?_⟩
  · have := ((leads_parts hc hs 0x0000#16 0x0000#16 0x0000#16 (templateArb2 valid) filterMctrl hb).trans hl1).trans (h6.trans (hl hc hs))
    simpa [templatesPlan, Safety.templateTurns, List.append_assoc] using this
  · intro n
    by_cases hn : n = 31
    · subst hn
      refine (Block.obj_setObj_same _ _ _).trans ?_
      refine (written_template _ _ valid 31 ?_ ?_ ?_ ?_ ?_).trans ?_
      · exact congrArg Iface.msk1 hst1
      · exact congrArg Iface.msk2 hst1
      · exact congrArg Iface.arb1 hst1
      · exact congrArg Iface.arb2 hst1
      · rfl
      · have : Block.obj { b1 with if1 := { b1.if1 with mctrl := 0x1080#16 } } 31 = b.obj 31 := by
          refine (hobj1 31).trans ?_
          rw [if_neg (by decide)]; rfl
        rw [this]
    · refine (Block.obj_setObj_other _ hn _).trans ?_
      refine (hobj1 n).trans ?_
      have := n.isLt
      rw [if_pos (by unfold slotNumber; have : n.val ≠ 31 := fun e => hn (Fin.ext e); omega)]
      exact written_template _ _ valid n rfl rfl rfl rfl (by rw [if_neg (show ¬ n.val = 31 from fun e => hn (Fin.ext e))]; rfl)
  · have := congrArg (fun x : Block => ({ x with if1 := b.if1 } : Block)) hrest1
    exact this
end


/-- A write of CNTL is always stored (R147). -/
theorem writeCntl_words (b : Block) (v : Word) : b.writeReg .cntl v = .stored (b.writeCntl v) := rfl

section
variable {s : State} {c : CtxId} {cs : List Activation} {ts ts' ts'' : List Turn} {b b' b'' : Block} {todo todo' todo'' : List Micro}

/-- set_bitrate of a timing word as a chain, up to its wait (R130). -/
theorem leads_bitrateWrites (hc : s.Runs c) (hs : Safety.Ready s) (w : BitVec 32) (inInit : Bool) :
    s.Leads c cs (Safety.hosts 5 ++ ts) b (setBitratePlan w inInit ++ todo) ts
      { b with bt := w.extractLsb' 0 15, clkdiv := w.extractLsb' 16 16, cntl := { b.cntl with cce := false, init := b.initReads }, initPending := !b.initReads }
      ((if b.initReads then [] else [.spinInit 0 inInit]) ++ todo) := by
  let v := cntlWord b.cntl b.initReads &&& 0x00EF#16
  have hv0 : v.getLsbD 0 = b.initReads := by simp [v, cntlWord, getElem_flag]
  have e1 : b.writeCntl (v ||| 0x0041#16) = { b with cntl := { b.cntl with cce := true, init := true }, initPending := false } := by
    rw [cntl_set]; simp
  have e2 : ∀ b1 : Block, b1.cntl = { b.cntl with cce := true, init := true } → b1.initPending = false → b1.writeCntl (v &&& ~~~ 0x0040#16) =
     { b1 with cntl := { b.cntl with cce := false, init := b.initReads }, initPending := !b.initReads } := by
    intro b1 h1 h2
    simp only [Block.writeCntl, v, BitVec.getLsbD_and, cntlWord, BitVec.getLsbD_or, getLsbD_flag, h1, h2]
    cases b.initReads <;> simp
  have hbt : (timingBt w).extractLsb' 0 15 = w.extractLsb' 0 15 := by
    apply BitVec.eq_of_getLsbD_eq; intro i hi
    simp only [timingBt, BitVec.getLsbD_extractLsb', hi, decide_true, Bool.true_and, Nat.zero_add]
    simp; omega
  refine (State.leads_rd hc hs (l := [.wr .cntl (v ||| 0x0041#16), .wr .bt (timingBt w), .wr .clkdiv (timingClkdiv w), .wr .cntl (v &&& ~~~ 0x0040#16)] ++ (if v.getLsbD 0 then [] else [.spinInit 0 inInit])) ?_).trans ?_
  · intro f; simp only [Cont.next, Block.usedWord_cntl]; rfl
  let b1 : Block := { b with cntl := { b.cntl with cce := true, init := true }, initPending := false }
  let b2 : Block := { b1 with bt := w.extractLsb' 0 15 }
  let b3 : Block := { b2 with clkdiv := w.extractLsb' 16 16 }
  let b4 : Block := { b3 with cntl := { b.cntl with cce := false, init := b.initReads }, initPending := !b.initReads }
  simp only [List.cons_append, List.nil_append]
  refine (State.leads_wr hc hs (b' := b1) (by rw [writeCntl_words]; exact congrArg _ e1)).trans ?_
  refine (State.leads_wr hc hs (b' := b2) (by simp [Block.writeReg, Block.writeBt, b1, b2, hbt])).trans ?_
  refine (State.leads_wr hc hs (b' := b3) (by simp [Block.writeReg, Block.writeClkdiv, b1, b2, b3, timingClkdiv])).trans ?_
  refine (State.leads_wr hc hs (b' := b4) (by rw [writeCntl_words]; exact congrArg _ (e2 b3 rfl rfl))).trans ?_
  rw [hv0]; exact .refl

/-- set_bitrate of a timing word as a chain, the acknowledgment coming at once (R130). -/
theorem leads_setBitrate (hc : s.Runs c) (hs : Safety.Ready s) (w : BitVec 32) (inInit : Bool) :
    s.Leads c cs (Safety.hosts 5 ++ (if b.initReads then [] else [.pe .initAck, .host]) ++ ts) b (setBitratePlan w inInit ++ todo) ts
      { b with bt := w.extractLsb' 0 15, clkdiv := w.extractLsb' 16 16, cntl := { b.cntl with cce := false, init := b.initReads }, initPending := false } todo := by
  rw [List.append_assoc]
  refine (leads_bitrateWrites hc hs w inInit).trans ?_
  cases hi : b.initReads with
  | true => exact .refl
  | false => exact (State.leads_ack hs rfl rfl).trans (State.leads_spinInit hc hs rfl)
end


section
variable {s : State} {c : CtxId} {cs : List Activation} {ts ts' ts'' : List Turn} {b b' b'' : Block} {todo todo' todo'' : List Micro}

/-- The writes of install_filter for a slot as a chain, and the object they leave (R193). -/
theorem leads_filterWrite (b : Block) {id mask : Nat} {fmt : Fmt} {n : Slot} (h1 : id ≤ fmt.maxId) (h2 : mask ≤ fmt.maxId)
    (hb : b.if1.busy = false) :
    ∃ b' o, (∀ {s : State} {c : CtxId} {cs : List Activation} {ts : List Turn}, s.Runs c → Safety.Ready s → s.Leads c cs (Safety.hosts 5 ++ Safety.transferTurns .if1 ++ ts) b (filterWritePlan id mask fmt (slotNumber n)) ts b' [.ret (.value (slotNumber n))]) ∧
      b'.obj n = o ∧ o.id.toNat = (if fmt = .ext then id else id * 262144) ∧ o.msk.toNat = (if fmt = .ext then mask else mask * 262144) ∧
      o = { o with
        msgval := true, xtd := decide (fmt = .ext), dir := false, mxtd := decide (fmt = .ext), mdir := false, newdat := false,
        msglst := false, intpnd := false, umask := true, txie := false, rxie := false, rmten := false, txrqst := false,
        eob := true, dlc := 8#4, data := (b.obj n).data } ∧
      (∀ m, m ≠ n → b'.obj m = b.obj m) ∧ b'.if1.busy = false ∧
      { b' with if1 := b.if1, objs := b.objs } = b := by
  let f5 : Iface := { b.if1 with msk1 := filterMsk1 mask fmt, msk2 := filterMsk2 mask fmt &&& 0xDFFF#16, arb1 := packArb1 id fmt, arb2 := filterArb2 id fmt, mctrl := filterMctrl &&& 0xFF8F#16 }
  obtain ⟨f, hf, hfb, hl⟩ := leads_write (m := n) (cmd := cmdFilterWr) { b with if1 := f5 } rfl (by decide) hb
  refine ⟨_, (b.obj n).written f5 (partsOf cmdFilterWr), fun hc hs => ((leads_parts hc hs (filterMsk1 mask fmt) (filterMsk2 mask fmt) (packArb1 id fmt) (filterArb2 id fmt) filterMctrl hb).trans (hl hc hs)), Block.obj_setObj_same _ _ _, ?_⟩
  have hp : partsOf cmdFilterWr = { mask := true, arb := true, ctrl := true, clrIntPnd := false, txRqstNewDat := false, dataA := false, dataB := false } := by decide
  have a2 := toNat_filterArb2 h1
  have k2 := toNat_filterMsk2 h2
  have a1 := toNat_packArb1 id fmt
  have k1 : (filterMsk1 mask fmt).toNat = if fmt = .ext then mask % 65536 else 0 := toNat_packArb1 mask fmt
  rw [hp]
  refine ⟨?_, ?_, ?_, ?_, hfb, ?_⟩
  · rw [Obj.written_id, if_pos rfl, toNat_join29, BitVec.extractLsb'_toNat]
    show (filterArb2 id fmt).toNat >>> 0 % 2 ^ 13 * 65536 + (packArb1 id fmt).toNat = _
    rw [a2, a1]; cases fmt <;> simp [Fmt.maxId] at * <;> omega
  · rw [Obj.written_msk, if_pos rfl, toNat_join29, BitVec.extractLsb'_toNat]
    show (filterMsk2 mask fmt &&& 0xDFFF#16).toNat >>> 0 % 2 ^ 13 * 65536 + (filterMsk1 mask fmt).toNat = _
    rw [filterMsk2_stored h2, k2, k1]; cases fmt <;> simp [Fmt.maxId] at * <;> omega
  · have q1 : (filterArb2 id fmt).getLsbD 15 = true := by rw [getLsbD_toNat, a2]; cases fmt <;> simp [Fmt.maxId] at * <;> omega
    have q2 : (filterArb2 id fmt).getLsbD 14 = decide (fmt = .ext) := by rw [getLsbD_toNat, a2]; cases fmt <;> simp [Fmt.maxId] at * <;> omega
    have q3 : (filterArb2 id fmt).getLsbD 13 = false := by rw [getLsbD_toNat, a2]; cases fmt <;> simp [Fmt.maxId] at * <;> omega
    have q4 : (filterMsk2 mask fmt).getLsbD 15 = decide (fmt = .ext) := by rw [getLsbD_toNat, k2]; cases fmt <;> simp [Fmt.maxId] at * <;> omega
    have q5 : (filterMsk2 mask fmt).getLsbD 14 = false := by rw [getLsbD_toNat, k2]; cases fmt <;> simp [Fmt.maxId] at * <;> omega
    simp only [Obj.written, Bool.false_eq_true, if_false, if_true, Obj.putMask, Obj.putArb, Obj.putCtrl, f5, q1, q2, q3, filterMsk2_stored h2, q4, q5]
    simp only [Obj.mk.injEq]
    decide
  · intro m hm; exact Block.obj_setObj_other _ hm _
  · rfl
end

/-- install_filter within its domain begins its plan (R192). -/
theorem startInstallFilter_eq {s : State} {id mask : Nat} {fmt : Fmt} {slot : Nat} (h1 : id ≤ fmt.maxId) (h2 : mask ≤ fmt.maxId) (h3 : slot ≤ 32) :
    startInstallFilter id mask fmt slot s = s.startPlan (installFilterPlan id mask fmt slot) := by
  have : badFilterOperand id mask fmt = none := by simp [badFilterOperand, Nat.not_lt.2 h1, Nat.not_lt.2 h2]
  simp only [startInstallFilter, this, gt_iff_lt, if_neg (Nat.not_lt.2 h3)]


/-- The bit of a slot in a bitmap pair (R41, R74). -/
theorem pairMap_bit (b : Block) (f : Obj → Bool) (n : Slot) : (pairMap (b.bitmap .hi f) (b.bitmap .lo f)).getLsbD n.val = f (b.obj n) := by
  have hn := n.isLt
  unfold pairMap
  rw [BitVec.getLsbD_append]
  by_cases h : n.val < 16
  · rw [if_pos h]; exact Block.bitmap_lo b f n (by unfold slotNumber; omega)
  · rw [if_neg h]
    have := Block.bitmap_hi b f n (by unfold slotNumber; omega)
    simpa [slotNumber] using this

/-- The scan finds the least bit of the value asked for. -/
theorem leastBit_some {map : BitVec 32} {v : Bool} {n : Nat} (hv : map.getLsbD n = v) : ∀ (fuel k : Nat), k ≤ n → n < k + fuel →
    (∀ m, k ≤ m → m < n → map.getLsbD m ≠ v) → leastBit map v k fuel = some n
  | 0, k, h1, h2, _ => by omega
  | fuel + 1, k, h1, h2, h3 => by
    rw [leastBit]
    by_cases hk : k = n
    · subst hk; rw [if_pos hv]
    · rw [if_neg (h3 k (by omega) (by omega))]
      exact leastBit_some hv fuel (k + 1) (by omega) (by omega) (fun m a b => h3 m (by omega) b)

/-- It finds none where there is none. -/
theorem leastBit_none {map : BitVec 32} {v : Bool} : ∀ (fuel k : Nat), (∀ m, k ≤ m → m < k + fuel → map.getLsbD m ≠ v) → leastBit map v k fuel = none
  | 0, k, _ => rfl
  | fuel + 1, k, h => by
    rw [leastBit, if_neg (h k (by omega) (by omega))]
    exact leastBit_none fuel (k + 1) (fun m a b => h m (by omega) (by omega))

/-- The scan for the least slot 1..31 with a property (R193, R219). -/
theorem leastBit_slot (b : Block) (f : Obj → Bool) (v : Bool) (n : Slot) (hn : n.val ≤ 30) (h : f (b.obj n) = v) (hl : ∀ m : Slot, m < n → f (b.obj m) ≠ v) :
    leastBit (pairMap (b.bitmap .hi f) (b.bitmap .lo f)) v 0 31 = some n.val := by
  refine leastBit_some (by rw [pairMap_bit, h]) 31 0 (by omega) (by omega) (fun m _ hm => ?_)
  have := pairMap_bit b f ⟨m, by omega⟩
  rw [this]; exact hl ⟨m, by omega⟩ hm

/-- The scan over the slots 1..31 finds none where none has the property (R193, R219). -/
theorem leastBit_noslot (b : Block) (f : Obj → Bool) (v : Bool) (hl : ∀ m : Slot, m.val ≤ 30 → f (b.obj m) ≠ v) :
    leastBit (pairMap (b.bitmap .hi f) (b.bitmap .lo f)) v 0 31 = none := by
  refine leastBit_none 31 0 (fun m _ hm => ?_)
  have := pairMap_bit b f ⟨m, by omega⟩
  rw [this]; exact hl ⟨m, by omega⟩ (by simp only; omega)


/-- send within its domain begins its plan (R202). -/
theorem startSend_eq {s : State} {f : Frame} {flags : Nat} (h1 : f.id ≤ f.fmt.maxId) (h2 : f.len ≤ 8) :
    startSend f flags s = s.startPlan (sendPlan f) := by
  have : badFrameOperand f = none := by simp [badFrameOperand, Nat.not_lt.2 h1, Nat.not_lt.2 h2]
  simp only [startSend, this]

/-- The data bytes written from the data words of a frame (R166, R201). -/
theorem written_frame_data (o : Obj) (f : Iface) (fr : Frame) (p : Parts) (hA : p.dataA = true) (hB : p.dataB = true)
    (h1 : f.da1 = (packTx fr).da1) (h2 : f.da2 = (packTx fr).da2) (h3 : f.db1 = (packTx fr).db1) (h4 : f.db2 = (packTx fr).db2) :
    (o.written f p).data = fr.data := by
  rw [Obj.written_data, hA, hB]
  simp only [if_true, h1, h2, h3, h4, packTx, lowerByte_bytePair, higherByte_bytePair, vector8_eta]

/-- Host turns in two parts. -/
theorem hosts_add (m n : Nat) : Safety.hosts (m + n) = Safety.hosts m ++ Safety.hosts n := by
  unfold Safety.hosts; exact List.replicate_add _ _ _

/-- The four data writes of send (R204). -/
theorem leads_dataWrites {s : State} {c : CtxId} {cs : List Activation} {ts : List Turn} {todo : List Micro} (b : Block) (hc : s.Runs c) (hs : Safety.Ready s) (d1 d2 d3 d4 : Word) (hb : b.if1.busy = false) :
    s.Leads c cs (Safety.hosts 4 ++ ts) b
      (.wr (.iface .if1 .da1) d1 :: .wr (.iface .if1 .da2) d2 :: .wr (.iface .if1 .db1) d3 :: .wr (.iface .if1 .db2) d4 :: todo) ts
      { b with if1 := { b.if1 with da1 := d1, da2 := d2, db1 := d3, db2 := d4 } } todo :=
  (((leads_staging1 hc hs (by decide) hb).trans
    (leads_staging1 hc hs (by decide) (by exact hb))).trans
    (leads_staging1 hc hs (by decide) (by exact hb))).trans
    (leads_staging1 hc hs (by decide) (by exact hb))

/-- An object is known by its fields but the identifier and the length code. -/
theorem obj_eq_of (o : Obj) {data : Vector Byte 8} {xtd dir mxtd : Bool} (hd : o.data = data) (h1 : o.msgval = true) (h2 : o.xtd = xtd) (h3 : o.dir = dir)
    (h4 : o.mxtd = mxtd) (h5 : o.mdir = false) (h6 : o.msk = 0#29) (h7 : o.newdat = false) (h8 : o.msglst = false) (h9 : o.intpnd = false)
    (h10 : o.umask = true) (h11 : o.txie = false) (h12 : o.rxie = false) (h13 : o.rmten = false) (h14 : o.txrqst = true) (h15 : o.eob = true) :
    o = { o with
      msgval := true, xtd := xtd, dir := dir, mxtd := mxtd, mdir := false, msk := 0#29, newdat := false, msglst := false, intpnd := false,
      umask := true, txie := false, rxie := false, rmten := false, txrqst := true, eob := true, data := data } := by
  subst hd h2 h3 h4
  obtain ⟨⟩ := o
  simp_all

/-- The writes of send as a chain, and the object they leave (R204). -/
theorem leads_frameWrite (b : Block) {fr : Frame} (h1 : fr.id ≤ fr.fmt.maxId) (h2 : fr.len ≤ 8) (hb : b.if1.busy = false) :
    ∃ b' o, (∀ {s : State} {c : CtxId} {cs : List Activation} {ts : List Turn}, s.Runs c → Safety.Ready s →
        s.Leads c cs (Safety.hosts 9 ++ Safety.transferTurns .if1 ++ Safety.hosts 2 ++ ts) b (sendWritePlan fr) ts b' [.ret (.value 1)]) ∧
      b'.obj 31 = o ∧ o.id.toNat = (if fr.fmt = .ext then fr.id else fr.id * 262144) ∧ o.dlc.toNat = fr.len ∧
      o = { o with
          msgval := true, xtd := decide (fr.fmt = .ext), dir := decide (fr.type = .remote), mxtd := decide (fr.fmt = .ext),
          mdir := false, msk := 0#29, newdat := false, msglst := false, intpnd := false, umask := true, txie := false,
          rxie := false, rmten := false, txrqst := true, eob := true, data := fr.data } ∧
      (∀ m, m ≠ 31 → b'.obj m = b.obj m) ∧ b'.if1.busy = false ∧
      { b' with if1 := b.if1, objs := b.objs } = { b with stat := { b.stat with txok := false }, statInt := false } := by
  let w := packTx fr
  let f5 : Iface := { b.if1 with msk1 := w.msk1, msk2 := w.msk2 &&& 0xDFFF#16, arb1 := w.arb1, arb2 := w.arb2, mctrl := w.mctrl &&& 0xFF8F#16 }
  let f9 : Iface := { f5 with da1 := w.da1, da2 := w.da2, db1 := w.db1, db2 := w.db2 }
  obtain ⟨f, hf, hfb, hl⟩ := leads_write (m := 31) (n := 32) (cmd := cmdTxWr) { b with if1 := f9 } rfl (by decide) hb
  let o := (b.obj 31).written f9 (partsOf cmdTxWr)
  let b1 : Block := { Block.setObj { b with if1 := f9 } 31 o with if1 := f }
  refine ⟨{ b1 with stat := { b.stat with txok := false }, statInt := false }, o, fun {s c cs ts} hc hs => ?_, Block.obj_setObj_same _ _ _, ?_, ?_, ?_, ?_, hfb, rfl⟩
  · rw [show (9 : Nat) = 5 + 4 from rfl, hosts_add]
    simp only [List.append_assoc]
    have hplan : sendWritePlan fr = .wr (.iface .if1 .msk1) w.msk1 :: .wr (.iface .if1 .msk2) w.msk2 :: .wr (.iface .if1 .arb1) w.arb1 :: .wr (.iface .if1 .arb2) w.arb2 ::
        .wr (.iface .if1 .mctrl) w.mctrl :: .wr (.iface .if1 .da1) w.da1 :: .wr (.iface .if1 .da2) w.da2 :: .wr (.iface .if1 .db1) w.db1 :: .wr (.iface .if1 .db2) w.db2 ::
        (transferPlan .if1 (slotWord 32) cmdTxWr ++ (clrTxokPlan ++ [.ret (.value 1)])) := rfl
    rw [hplan]
    refine (leads_parts hc hs _ _ _ _ _ hb).trans ?_
    refine (leads_dataWrites { b with if1 := f5 } hc hs _ _ _ _ hb).trans ?_
    refine (hl hc hs).trans ?_
    exact leads_clrTxok (b := b1) hc hs
  all_goals have hp : partsOf cmdTxWr = { mask := true, arb := true, ctrl := true, clrIntPnd := false, txRqstNewDat := true, dataA := true, dataB := true } := by decide
  · have a2 := toNat_txArb2 fr h1
    have a1 := toNat_packArb1 fr.id fr.fmt
    show ((b.obj 31).written f9 (partsOf cmdTxWr)).id.toNat = _
    rw [Obj.written_id, hp, if_pos rfl, toNat_join29, BitVec.extractLsb'_toNat]
    show (txArb2 fr).toNat >>> 0 % 2 ^ 13 * 65536 + (packArb1 fr.id fr.fmt).toNat = _
    rw [a2, a1]; cases hf : fr.fmt <;> cases fr.type <;> simp [Fmt.maxId, hf] at * <;> omega
  · show ((b.obj 31).written f9 (partsOf cmdTxWr)).dlc.toNat = _
    rw [Obj.written_dlc, hp, if_pos rfl]
    show ((((0x1180#16 ||| BitVec.ofNat 16 fr.len) &&& 0xFF8F#16) : Word).extractLsb' 0 4).toNat = _
    rw [txMctrl_stored h2, BitVec.extractLsb'_toNat, toNat_txMctrl h2]; simp; omega
  · have a2 := toNat_txArb2 fr h1
    have q1 : (txArb2 fr).getLsbD 15 = true := by rw [getLsbD_toNat, a2]; cases hf : fr.fmt <;> cases fr.type <;> simp [Fmt.maxId, hf] at * <;> omega
    have q2 : (txArb2 fr).getLsbD 14 = decide (fr.fmt = .ext) := by rw [getLsbD_toNat, a2]; cases hf : fr.fmt <;> cases fr.type <;> simp [Fmt.maxId, hf] at * <;> omega
    have q3 : (txArb2 fr).getLsbD 13 = decide (fr.type = .remote) := by rw [getLsbD_toNat, a2]; cases hf : fr.fmt <;> cases fr.type <;> simp [Fmt.maxId, hf] at * <;> omega
    have hdata := written_frame_data (b.obj 31) f9 fr (partsOf cmdTxWr) (by decide) (by decide) rfl rfl rfl rfl
    have q4 : (txMsk2 fr.fmt).getLsbD 15 = decide (fr.fmt = .ext) := by cases fr.fmt <;> decide
    have q5 : (txMsk2 fr.fmt).getLsbD 14 = false := by cases fr.fmt <;> decide
    have q6 : join29 (txMsk2 fr.fmt) 0#16 = 0#29 := by cases fr.fmt <;> decide
    have e := @txMctrl_bits fr.len h2
    have hm : f9.mctrl = 0x1180#16 ||| BitVec.ofNat 16 fr.len := txMctrl_stored h2
    have hk : f9.msk2 = txMsk2 fr.fmt := txMsk2_stored fr
    have ha : f9.arb2 = txArb2 fr := rfl
    refine obj_eq_of _ hdata ?_ ?_ ?_ ?_ ?_ ?_ ?_ ?_ ?_ ?_ ?_ ?_ ?_ ?_ ?_
    · rw [Obj.written_msgval, hp, if_pos rfl, ha, q1]
    · rw [Obj.written_xtd, hp, if_pos rfl, ha, q2]
    · rw [Obj.written_dir, hp, if_pos rfl, ha, q3]
    · rw [Obj.written_mxtd, hp, if_pos rfl, hk, q4]
    · rw [Obj.written_mdir, hp, if_pos rfl, hk, q5]
    · rw [Obj.written_msk, hp, if_pos rfl, hk]; exact q6
    · rw [Obj.written_newdat, hp, if_pos rfl, hm, e 15 (by omega) (by omega)]; decide
    · rw [Obj.written_msglst, hp, if_pos rfl, hm, e 14 (by omega) (by omega)]; decide
    · rw [Obj.written_intpnd, hp, if_pos rfl, hm, e 13 (by omega) (by omega)]; decide
    · rw [Obj.written_umask, hp, if_pos rfl, hm, e 12 (by omega) (by omega)]; decide
    · rw [Obj.written_txie, hp, if_pos rfl, hm, e 11 (by omega) (by omega)]; decide
    · rw [Obj.written_rxie, hp, if_pos rfl, hm, e 10 (by omega) (by omega)]; decide
    · rw [Obj.written_rmten, hp, if_pos rfl, hm, e 9 (by omega) (by omega)]; decide
    · rw [Obj.written_txrqst, hp, if_pos rfl]
    · rw [Obj.written_eob, hp, if_pos rfl, hm, e 7 (by omega) (by omega)]; decide
  · intro m hm; exact Block.obj_setObj_other _ hm _

/-- A frame's staging words as receive uses them, from an object (R167, R219). -/
theorem unpack_loaded (o : Obj) (v : Word) (hv : v.extractLsb' 0 4 = o.dlc) :
    unpackRx (o.id.extractLsb' 0 16) (objArb2 o) v (bytePair o.data[0] o.data[1]) (bytePair o.data[2] o.data[3])
      (bytePair o.data[4] o.data[5]) (bytePair o.data[6] o.data[7]) =
    { id := if o.xtd then o.id.toNat else o.id.toNat / 262144, fmt := if o.xtd then .ext else .std,
      type := if o.dir then .remote else .data, len := o.dlc.toNat, data := o.data } := by
  have hx : (objArb2 o).getLsbD 14 = o.xtd := by simp [objArb2, getElem_flag, getElem_field]
  have hd : (objArb2 o).getLsbD 13 = o.dir := by simp [objArb2, getElem_flag, getElem_field]
  have h13 : (objArb2 o).extractLsb' 0 13 = o.id.extractLsb' 16 13 := by
    apply BitVec.eq_of_getLsbD_eq; intro i hi
    simp only [objArb2, BitVec.getLsbD_extractLsb', hi, decide_true, Bool.true_and, BitVec.getLsbD_or, getLsbD_flag, getLsbD_field]
    simp [show ¬ i = 15 by omega, show ¬ i = 14 by omega, show ¬ i = 13 by omega, show i < 16 by omega, hi]
  have h11 : (objArb2 o).extractLsb' 2 11 = o.id.extractLsb' 18 11 := by
    apply BitVec.eq_of_getLsbD_eq; intro i hi
    simp only [objArb2, BitVec.getLsbD_extractLsb', hi, decide_true, Bool.true_and, BitVec.getLsbD_or, getLsbD_flag, getLsbD_field]
    simp
    have a : ¬ 2 + i = 15 := by omega
    have b : ¬ 2 + i = 14 := by omega
    have c : ¬ 2 + i = 13 := by omega
    have d : 2 + i < 16 := by omega
    have e : 2 + i < 13 := by omega
    simp [a, b, c, d, e, show 16 + (2 + i) = 18 + i by omega]
  have hid := o.id.isLt
  simp only [unpackRx, hx, hd, hv, bytesOf, lowerByte_bytePair, higherByte_bytePair, vector8_eta, Frame.mk.injEq, and_true]
  cases o.xtd
  · simp only [Bool.false_eq_true, if_false, h11, BitVec.extractLsb'_toNat, Nat.shiftRight_eq_div_pow]; omega
  · simp only [if_true, toNat_join29, h13, BitVec.extractLsb'_toNat, Nat.shiftRight_eq_div_pow]; omega

/-- The length code of an object's MCTRL word (R29). -/
theorem objMctrl_dlc (o : Obj) : (objMctrl o &&& ~~~ 0x0070#16).extractLsb' 0 4 = o.dlc := by
  apply BitVec.eq_of_getLsbD_eq; intro i hi
  simp only [objMctrl, BitVec.getLsbD_extractLsb', hi, decide_true, Bool.true_and, BitVec.getLsbD_or, BitVec.getLsbD_and, getLsbD_flag, getLsbD_field]
  interval_cases i <;> simp

/-- The object read, as the frame receive returns (R215, R219). -/
def frameOf (o : Obj) : Frame :=
  { id := if o.xtd then o.id.toNat else o.id.toNat / 262144, fmt := if o.xtd then .ext else .std,
    type := if o.dir then .remote else .data, len := o.dlc.toNat, data := o.data }

/-- One of the staging reads of receive (R219). -/
theorem leads_receiveWords {s : State} {c : CtxId} {cs : List Activation} {ts : List Turn} {b : Block} {x : IfReg} {ws : List Word} {v : Word} {todo : List Micro}
    (hc : s.Runs c) (hs : Safety.Ready s) (hb : b.if2.busy = false) (hv : b.if2.stored x &&& ~~~ reservedBits (.iface .if2 x) = v) :
    s.Leads c cs (.host :: ts) b (.rd (.iface .if2 x) (.receiveWords ws) :: todo) ts b (receiveWordsPlan ws v ++ todo) :=
  State.leads_rd hc hs (by intro f; rw [Block.usedWord_iface _ _ .if2 _ hb]; show receiveWordsPlan ws (b.if2.stored x &&& ~~~ reservedBits (.iface .if2 x)) = _; rw [hv])

/-- The transfer and the reads of receive, as a chain (R219). -/
theorem leads_frameRead (b : Block) (n : Slot) (hb : b.if2.busy = false) :
    ∃ b', (∀ {s : State} {c : CtxId} {cs : List Activation} {ts : List Turn}, s.Runs c → Safety.Ready s →
        s.Leads c cs (Safety.transferTurns .if2 ++ Safety.hosts 9 ++ ts) b (receiveReadPlan (slotNumber n)) ts b'
          [.ret (.frame (frameOf (b.obj n)))]) ∧
      b'.obj n = { b.obj n with newdat := false, intpnd := false } ∧ (∀ m, m ≠ n → b'.obj m = b.obj m) ∧ b'.if2.busy = false ∧
      { b' with if2 := b.if2, objs := b.objs } = { b with stat := { b.stat with rxok := false }, statInt := false } := by
  have hp : partsOf cmdRxRd = { mask := true, arb := true, ctrl := true, clrIntPnd := true, txRqstNewDat := true, dataA := true, dataB := true } := by decide
  let f0 : Iface := { b.iface .if2 with slot := n, cmd := cmdRxRd, cmdmsk := cmdRxRd, msgnum := (slotWord (slotNumber n)).extractLsb' 0 6 }
  let f : Iface := { f0.loaded (b.obj n) (partsOf cmdRxRd) with busy := false }
  let b1 : Block := { b.setObj n ((b.obj n).cleared (partsOf cmdRxRd)) with if2 := f }
  have hz : ∀ v : Word, v &&& ~~~ 0#16 = v := by intro v; apply word_ext; intro i hi; interval_cases i <;> simp
  refine ⟨{ b1 with stat := { b.stat with rxok := false }, statInt := false }, fun {s c cs ts} hc hs => ?_, ?_, ?_, rfl, rfl⟩
  · have ht := State.leads_transfer (s := s) (c := c) (cs := cs) (cmd := cmdRxRd) (ts := Safety.hosts 9 ++ ts) (todo := [.rd (.iface .if2 .arb1) (.receiveWords [])]) hc hs (k := .if2) (b := b) hb
      (slotWord_slot (n := slotNumber n) rfl)
    rw [transferred_rd _ _ _ _ _ (by decide)] at ht
    rw [List.append_assoc]
    refine ht.trans ?_
    have hf1 : b1.if2.arb1 = (b.obj n).id.extractLsb' 0 16 := by show (f0.loaded (b.obj n) (partsOf cmdRxRd)).arb1 = _; rw [Iface.loaded_arb1, hp, if_pos rfl]
    have hf2 : b1.if2.arb2 = objArb2 (b.obj n) := by show (f0.loaded (b.obj n) (partsOf cmdRxRd)).arb2 = _; rw [Iface.loaded_arb2, hp, if_pos rfl]
    have hf3 : b1.if2.mctrl = objMctrl (b.obj n) := by show (f0.loaded (b.obj n) (partsOf cmdRxRd)).mctrl = _; rw [Iface.loaded_mctrl, hp, if_pos rfl]
    have hf4 : b1.if2.da1 = bytePair (b.obj n).data[0] (b.obj n).data[1] := by show (f0.loaded (b.obj n) (partsOf cmdRxRd)).da1 = _; rw [Iface.loaded_da1, hp, if_pos rfl]
    have hf5 : b1.if2.da2 = bytePair (b.obj n).data[2] (b.obj n).data[3] := by show (f0.loaded (b.obj n) (partsOf cmdRxRd)).da2 = _; rw [Iface.loaded_da2, hp, if_pos rfl]
    have hf6 : b1.if2.db1 = bytePair (b.obj n).data[4] (b.obj n).data[5] := by show (f0.loaded (b.obj n) (partsOf cmdRxRd)).db1 = _; rw [Iface.loaded_db1, hp, if_pos rfl]
    have hf7 : b1.if2.db2 = bytePair (b.obj n).data[6] (b.obj n).data[7] := by show (f0.loaded (b.obj n) (partsOf cmdRxRd)).db2 = _; rw [Iface.loaded_db2, hp, if_pos rfl]
    have hbb : b1.if2.busy = false := rfl
    have hz7 : ∀ x : IfReg, reservedBits (.iface .if2 x) = 0#16 → b1.if2.stored x &&& ~~~ reservedBits (.iface .if2 x) = b1.if2.stored x := by
      intro x hx; rw [hx, hz]
    show s.Leads c cs _ b1 _ ts _ _
    refine (leads_receiveWords hc hs hbb (hz7 .arb1 rfl)).trans ?_
    refine (leads_receiveWords hc hs hbb (hz7 .arb2 rfl)).trans ?_
    refine (leads_receiveWords hc hs hbb rfl).trans ?_
    refine (leads_receiveWords hc hs hbb (hz7 .da1 rfl)).trans ?_
    refine (leads_receiveWords hc hs hbb (hz7 .da2 rfl)).trans ?_
    refine (leads_receiveWords hc hs hbb (hz7 .db1 rfl)).trans ?_
    refine (leads_receiveWords hc hs hbb (hz7 .db2 rfl)).trans ?_
    have hfr : unpackRx (b1.if2.stored .arb1) (b1.if2.stored .arb2) (b1.if2.stored .mctrl &&& ~~~ reservedBits (.iface .if2 .mctrl)) (b1.if2.stored .da1) (b1.if2.stored .da2) (b1.if2.stored .db1) (b1.if2.stored .db2) = frameOf (b.obj n) := by
      show unpackRx b1.if2.arb1 b1.if2.arb2 (b1.if2.mctrl &&& ~~~ 0x0070#16) b1.if2.da1 b1.if2.da2 b1.if2.db1 b1.if2.db2 = _
      rw [hf1, hf2, hf3, hf4, hf5, hf6, hf7]; exact unpack_loaded _ _ (objMctrl_dlc _)
    rw [receiveWordsPlan, hfr, List.append_assoc]
    exact leads_clrRxok hc hs
  · refine (Block.obj_setObj_same _ _ _).trans ?_
    rw [Obj.cleared_eq, hp]; simp
  · intro m hm; exact Block.obj_setObj_other _ hm _

/-- receive within its domain begins its plan (R219). -/
theorem startReceive_eq {s : State} {slot : Nat} (h : slot ≤ 32) : startReceive slot s = s.startPlan (receivePlan slot) := by
  simp only [startReceive, gt_iff_lt, if_neg (Nat.not_lt.2 h)]

/-- The turns ts lead a call from state s to state s', which may differ in what a call changes outside the block. -/
def State.LeadsTo (s : State) (c : CtxId) (cs : List Activation) (ts : List Turn) (b : Block) (todo : List Micro)
    (s' : State) (ts' : List Turn) (b' : Block) (todo' : List Micro) : Prop :=
  ∀ n w, ∃ n' w', runTurns c cs.length ts (s.inCall c cs b n w todo) = runTurns c cs.length ts' (s'.inCall c cs b' n' w' todo')

section
variable {s s' s'' : State} {c : CtxId} {cs : List Activation} {ts ts' ts'' : List Turn} {b b' b'' : Block} {todo todo' todo'' : List Micro}

/-- A chain that changes nothing outside the block. -/
theorem State.Leads.to (h : s.Leads c cs ts b todo ts' b' todo') : s.LeadsTo c cs ts b todo s ts' b' todo' := h

/-- Two chains, one after the other. -/
theorem State.LeadsTo.trans (h : s.LeadsTo c cs ts b todo s' ts' b' todo') (g : s'.LeadsTo c cs ts' b' todo' s'' ts'' b'' todo'') :
    s.LeadsTo c cs ts b todo s'' ts'' b'' todo'' := fun n w => by
  obtain ⟨n', w', e⟩ := h n w
  obtain ⟨n'', w'', e'⟩ := g n' w'
  exact ⟨n'', w'', e.trans e'⟩

/-- env_clock (R14). -/
theorem State.leads_envClock (hc : s.Runs c) (hr : s.refused = none) (v : Bool) :
    s.LeadsTo c cs (.host :: ts) b (.envClock v :: todo) (s.envClock v) ts b todo := fun n w => ⟨n, w, runTurns_envClock hc hr v⟩

/-- env_reset(0) (R300). -/
theorem State.leads_release (hc : s.Runs c) (hr : s.refused = none) :
    s.LeadsTo c cs (.host :: ts) b (.envReset false :: todo) { s with rst := false } ts b todo := fun n w => ⟨n, w, runTurns_release hc hr⟩

/-- route (R233). -/
theorem State.leads_route (hc : s.Runs c) (hr : s.refused = none) (x y : Nat) :
    s.Leads c cs (.host :: ts) b (.route x y :: todo) ts b todo := fun n w => ⟨n, w, runTurns_route hc hr x y⟩

/-- A change of the registration (R276, R277). -/
theorem State.leads_setReg (hc : s.Runs c) (hr : s.refused = none) (x : Registration) :
    s.LeadsTo c cs (.host :: ts) b (.setReg x :: todo) { s with reg := x } ts b todo := fun n w => ⟨n, w, runTurns_setReg hc hr x⟩

/-- A change of host_ie (R276, R277). -/
theorem State.leads_hostIe (hc : s.Runs c) (hr : s.refused = none) (x : Bool) :
    s.LeadsTo c cs (.host :: ts) b (.hostIe x :: todo) { s with hostIe := x } ts b todo := fun n w => ⟨n, w, runTurns_hostIe hc hr x⟩

/-- A call whose plan leads to its return in a state whose contexts are those of s has returned. -/
theorem State.LeadsTo.returned {start : State → State} {plan : List Micro} {r : Ret} (hp : start s = s.startPlan plan)
    (h : s.LeadsTo s.running (s.ctx s.running).calls s.turns s.block plan s' ts' b' (.ret r :: todo'))
    (hm : s'.main = s.main) (hi : s'.irq = s.irq) :
    ∃ t, Host.Outcome.next (runCall start s) = (.next t : Host.Outcome State Fault Refusal) ∧ Safety.Returned s' b' ts' r t := by
  obtain ⟨n, w, e⟩ := h s.fresh (s.ctx s.running).rdata
  have hrun : s'.running = s.running := by simp [State.running, hi]
  have hctx : s'.ctx s.running = s.ctx s.running := by cases s.running <;> assumption
  refine ⟨_, congrArg _ ((runCall_plan plan start hp).trans (e.trans (runTurns_ret r))), n, w, ?_⟩
  rw [hrun, hctx]; rfl

/-- INIT released by a write of 0 (R233). -/
theorem leads_clearCntl (hc : s.Runs c) (hs : Safety.Ready s) (hb : b.cntl = { test := false, cce := false, dar := false, eie := false, sie := false, ie := false, init := true }) :
    s.Leads c cs (.host :: ts) b (.wr .cntl 0x0000#16 :: todo) ts (Safety.released b) todo :=
  State.leads_wr hc hs (by simp [Block.writeReg, Block.writeCntl, Safety.released, hb])

/-- INIT released by a write of 0, with its acknowledgment (R233). -/
theorem leads_startUp (hc : s.Runs c) (hs : Safety.Ready s) (hb : b.cntl = { test := false, cce := false, dar := false, eie := false, sie := false, ie := false, init := true }) :
    s.Leads c cs (.host :: .pe .initAck :: .host :: ts) b (.wr .cntl 0x0000#16 :: .spinInit 0 false :: todo) ts
      { b with cntl := { test := false, cce := false, dar := false, eie := false, sie := false, ie := false, init := false }, initPending := false } todo := by
  refine (leads_clearCntl hc hs hb).trans ((State.leads_ack hs rfl rfl).trans ?_)
  have : ({ Safety.released b with initPending := false } : Block) = { b with cntl := { test := false, cce := false, dar := false, eie := false, sie := false, ie := false, init := false }, initPending := false } := by
    simp [Safety.released, hb]
  rw [this]; exact State.leads_spinInit hc hs rfl
end

/-! ### Dispatches -/

/-- A dispatch's run (R273, R280). -/
theorem exec_dispatch_eq {s : State} (h : s.mayDispatch = true) :
    exec .dispatch s = .next (runTurns .irq ([] : List Activation).length s.turns
      (s.inCall .irq [] s.block s.fresh s.irq.rdata dispatchPlan)) := by
  have hc : s.irq.calls = [] := by
    simp only [State.mayDispatch, Bool.and_eq_true, List.isEmpty_iff] at h; exact h.2
  show (if s.mayDispatch = true then _ else _) = _
  rw [if_pos h, State.takeInterrupt, if_pos h, State.beginCall]
  show Host.Outcome.next (runTurns .irq 0 s.turns (s.continueCall .irq dispatchPlan s.irq.calls)) = _
  rw [hc]
  rfl

/-- A callback that issues nothing, over its two turns. -/
theorem State.leads_callback {s : State} {c : CtxId} {cs : List Activation} {ts : List Turn} {b : Block} {todo : List Micro} (hc : s.Runs c) (hr : s.refused = none)
    (e : Event) (arg : Word) (cls : Option IrqClass) (f : Nat) (h : s.reg.cb = some f) (he : s.reg.enabled cls = true) (hp : s.callbackPrograms = []) :
    s.LeadsTo c cs (.host :: .host :: ts) b (.callback e arg cls :: todo)
      { s with delivered := s.delivered ++ [{ cb := f, token := s.reg.token, event := e, arg := arg }] } ts b todo := fun n w =>
  ⟨n, w, by
    have ht : s.callbackPrograms.tail = s.callbackPrograms := by rw [hp]; rfl
    rw [runTurns_callback hc hr e arg cls f h he (by rw [hp]; rfl), ht]⟩

/-- The state with these callback invocations made. -/
def State.notified (s : State) (ds : List Delivery) : State := { s with delivered := s.delivered ++ ds }

/-- A notification, made or not (R280). -/
theorem State.leads_notice {s : State} {cs : List Activation} {ts : List Turn} {b : Block} {todo : List Micro} (hr : s.refused = none) {f : Nat}
    (h : s.reg.cb = some f) (hp : s.callbackPrograms = []) (ds : List Delivery) (v : Bool) (e : Event) (a : Word) :
    (s.notified ds).LeadsTo .irq cs ((if v then Safety.hosts 2 else []) ++ ts) b ((if v then [.callback e a none] else []) ++ todo)
      (s.notified (ds ++ if v then [{ cb := f, token := s.reg.token, event := e, arg := a }] else [])) ts b todo := by
  cases v with
  | false => rw [if_neg (by simp), if_neg (by simp), if_neg (by simp), List.append_nil]; exact State.Leads.refl.to
  | true =>
    have := State.leads_callback (s := s.notified ds) (c := .irq) (cs := cs) (ts := ts) (b := b) (todo := todo) (.inl rfl) hr e a none f h rfl hp
    simpa [State.notified, List.append_assoc, Safety.hosts, List.replicate] using this

/-- The RXOK notification with its clear, made or not (R280). -/
theorem State.leads_noticeRx {s : State} {cs : List Activation} {ts : List Turn} {b : Block} {todo : List Micro} (hs : Safety.Ready s) {f : Nat}
    (h : s.reg.cb = some f) (hp : s.callbackPrograms = []) (ds : List Delivery) {v : Bool} (hv : b.stat.rxok = v) (hi : b.statInt = false) (a : Word) :
    (s.notified ds).LeadsTo .irq cs ((if v then Safety.hosts 4 else []) ++ ts) b ((if v then clrRxokPlan ++ [.callback .rxOk a none] else []) ++ todo)
      (s.notified (ds ++ if v then [{ cb := f, token := s.reg.token, event := .rxOk, arg := a }] else [])) ts { b with stat := { b.stat with rxok := false } } todo := by
  cases v with
  | false =>
    have : ({ b with stat := { b.stat with rxok := false } } : Block) = b := by rw [← hv]
    rw [if_neg (by simp), if_neg (by simp), if_neg (by simp), List.append_nil, this]; exact State.Leads.refl.to
  | true =>
    have hb : ({ b with stat := { b.stat with rxok := false }, statInt := false } : Block) = { b with stat := { b.stat with rxok := false } } := by
      cases b; simp at hi; simp [hi]
    have h1 := leads_clrRxok (s := s.notified ds) (c := .irq) (cs := cs) (ts := Safety.hosts 2 ++ ts) (b := b) (todo := [.callback .rxOk a none] ++ todo) (.inl rfl) hs
    have h2 := State.leads_notice (s := s) (cs := cs) (ts := ts) (b := { b with stat := { b.stat with rxok := false }, statInt := false }) (todo := todo) hs.2.2 h hp ds true .rxOk a
    have := h1.to.trans h2
    rw [hb] at this
    simpa [List.append_assoc, Safety.hosts, List.replicate] using this

/-- The TXOK notification with its clear, made or not (R280). -/
theorem State.leads_noticeTx {s : State} {cs : List Activation} {ts : List Turn} {b : Block} {todo : List Micro} (hs : Safety.Ready s) {f : Nat}
    (h : s.reg.cb = some f) (hp : s.callbackPrograms = []) (ds : List Delivery) {v : Bool} (hv : b.stat.txok = v) (hi : b.statInt = false) (a : Word) :
    (s.notified ds).LeadsTo .irq cs ((if v then Safety.hosts 4 else []) ++ ts) b ((if v then clrTxokPlan ++ [.callback .txOk a none] else []) ++ todo)
      (s.notified (ds ++ if v then [{ cb := f, token := s.reg.token, event := .txOk, arg := a }] else [])) ts { b with stat := { b.stat with txok := false } } todo := by
  cases v with
  | false =>
    have : ({ b with stat := { b.stat with txok := false } } : Block) = b := by rw [← hv]
    rw [if_neg (by simp), if_neg (by simp), if_neg (by simp), List.append_nil, this]; exact State.Leads.refl.to
  | true =>
    have hb : ({ b with stat := { b.stat with txok := false }, statInt := false } : Block) = { b with stat := { b.stat with txok := false } } := by
      cases b; simp at hi; simp [hi]
    have h1 := leads_clrTxok (s := s.notified ds) (c := .irq) (cs := cs) (ts := Safety.hosts 2 ++ ts) (b := b) (todo := [.callback .txOk a none] ++ todo) (.inl rfl) hs
    have h2 := State.leads_notice (s := s) (cs := cs) (ts := ts) (b := { b with stat := { b.stat with txok := false }, statInt := false }) (todo := todo) hs.2.2 h hp ds true .txOk a
    have := h1.to.trans h2
    rw [hb] at this
    simpa [List.append_assoc, Safety.hosts, List.replicate] using this

/-- A notification without a callback: it is passed over (R280, R282 case 6). -/
theorem State.leads_noNotice {s : State} {cs : List Activation} {ts : List Turn} {b : Block} {todo : List Micro} (hr : s.refused = none)
    (h : s.reg.cb = none) (v : Bool) (e : Event) (a : Word) :
    s.Leads .irq cs ((if v then Safety.hosts 1 else []) ++ ts) b ((if v then [.callback e a none] else []) ++ todo) ts b todo := by
  cases v with
  | false => exact State.Leads.refl
  | true => exact fun n w => ⟨n, w, runTurns_noCallback (.inl rfl) hr e a none (.inl h)⟩

/-- The RXOK clear without a callback (R280, R282 case 6). -/
theorem State.leads_noNoticeRx {s : State} {cs : List Activation} {ts : List Turn} {b : Block} {todo : List Micro} (hs : Safety.Ready s)
    (h : s.reg.cb = none) {v : Bool} (hv : b.stat.rxok = v) (hi : b.statInt = false) (a : Word) :
    s.Leads .irq cs ((if v then Safety.hosts 3 else []) ++ ts) b ((if v then clrRxokPlan ++ [.callback .rxOk a none] else []) ++ todo) ts
      { b with stat := { b.stat with rxok := false } } todo := by
  cases v with
  | false =>
    rw [show ({ b with stat := { b.stat with rxok := false } } : Block) = b by rw [← hv]]
    exact State.Leads.refl
  | true =>
    have hb : ({ b with stat := { b.stat with rxok := false }, statInt := false } : Block) = { b with stat := { b.stat with rxok := false } } := by
      rw [← hi]
    rw [← hb]
    exact (leads_clrRxok (.inl rfl) hs).trans (State.leads_noNotice hs.2.2 h true .rxOk a)

/-- The TXOK clear without a callback (R280, R282 case 6). -/
theorem State.leads_noNoticeTx {s : State} {cs : List Activation} {ts : List Turn} {b : Block} {todo : List Micro} (hs : Safety.Ready s)
    (h : s.reg.cb = none) {v : Bool} (hv : b.stat.txok = v) (hi : b.statInt = false) (a : Word) :
    s.Leads .irq cs ((if v then Safety.hosts 3 else []) ++ ts) b ((if v then clrTxokPlan ++ [.callback .txOk a none] else []) ++ todo) ts
      { b with stat := { b.stat with txok := false } } todo := by
  cases v with
  | false =>
    rw [show ({ b with stat := { b.stat with txok := false } } : Block) = b by rw [← hv]]
    exact State.Leads.refl
  | true =>
    have hb : ({ b with stat := { b.stat with txok := false }, statInt := false } : Block) = { b with stat := { b.stat with txok := false } } := by
      rw [← hi]
    rw [← hb]
    exact (leads_clrTxok (.inl rfl) hs).trans (State.leads_noNotice hs.2.2 h true .txOk a)

end Sys2Proof.Machine
end

