-- ==== Sys2Proof/Tests/Slice0.lean ====
section
/-! SUPPORT. Tests. Expected values are those of 95_test_vectors.md and of the rules it cites, never the model's own answers. -/

namespace Sys2Proof.Tests

set_option Elab.async false

open Sys2Proof Sys2Proof.Machine

/-! ### WellFormed: an ill-formed term is refused by each check, and the boundary is not -/

/-- A frame with its data bytes 0. -/
def frameOf (id : Nat) (fmt : Fmt) (len : Nat) : Frame := { id := id, fmt := fmt, type := .data, len := len, data := Vector.replicate 8 0#8 }

theorem test_wellFormed_rjw : wellFormed (.btcalc 12000000 100000 3) = true ∧ wellFormed (.btcalc 12000000 100000 4) = false := by decide
theorem test_wellFormed_filterId :
    wellFormed (.packFilter 0x7FF 0 .std) = true ∧ wellFormed (.packFilter 0x800 0 .std) = false ∧
    wellFormed (.packFilter 0x1FFFFFFF 0 .ext) = true ∧ wellFormed (.packFilter 0x20000000 0 .ext) = false := by decide
theorem test_wellFormed_filterMask :
    wellFormed (.packFilter 0x123 0x7FF .std) = true ∧ wellFormed (.packFilter 0x123 0x800 .std) = false := by decide
theorem test_wellFormed_packTx :
    wellFormed (.packTx (frameOf 0x7FF .std 8)) = true ∧ wellFormed (.packTx (frameOf 0x800 .std 0)) = false ∧
    wellFormed (.packTx (frameOf 0x123 .std 9)) = false := by decide
theorem test_wellFormed_installFilter :
    wellFormed (.installFilter 0x123 0x7FF .std 32) = true ∧ wellFormed (.installFilter 0x123 0x7FF .std 33) = false ∧
    wellFormed (.installFilter 0x800 0 .std 5) = false := by decide
theorem test_wellFormed_send :
    wellFormed (.send (frameOf 0x1FFFFFFF .ext 8) 0) = true ∧ wellFormed (.send (frameOf 0x20000000 .ext 0) 0) = false ∧
    wellFormed (.send (frameOf 0x123 .std 9) 0) = false := by decide
theorem test_wellFormed_receive : wellFormed (.receive 32) = true ∧ wellFormed (.receive 33) = false := by decide
theorem test_wellFormed_transfer :
    wellFormed (.transfer .if1 32 0xF0) = true ∧ wellFormed (.transfer .if1 0 0xF0) = false ∧
    wellFormed (.transfer .if1 33 0xF0) = false := by decide

/-! ### Decoding (95_test_vectors.md 2.4; R94, R99 for the command words) -/

theorem test_decode_read : decodeBus 0x00001234#32 = .instr .rdCntl ∧ decodeBus 0x00040000#32 = .instr .rdStat := by decide
theorem test_decode_write :
    decodeBus 0x81800000#32 = .instr (.wrClkdiv 0#16) ∧ decodeBus 0x80A8FFFF#32 = .instr (.wrIf2Db2 0xFFFF#16) := by decide
theorem test_decode_z :
    decodeBus 0x10040000#32 = .rejected (.badOffset 0x10040000) ∧
    decodeBus 0x90080000#32 = .rejected (.badOffset 0x90080000) := by decide
theorem test_decode_offset :
    decodeBus 0x00020000#32 = .rejected (.badOffset 0x002) ∧ decodeBus 0x00180000#32 = .rejected (.badOffset 0x018) ∧
    decodeBus 0x004C0000#32 = .rejected (.badOffset 0x04C) ∧ decodeBus 0x00600000#32 = .rejected (.badOffset 0x060) ∧
    decodeBus 0x0FFF0000#32 = .rejected (.badOffset 0xFFF) := by decide
theorem test_decode_readOnly :
    decodeBus 0x80080000#32 = .rejected (.roWrite .ec) ∧ decodeBus 0x80101234#32 = .rejected (.roWrite .int) ∧
    decodeBus 0x81640000#32 = .rejected (.roWrite (.msgv .hi)) := by decide
theorem test_decode_width : decodeAccess .w8 false 0x004 0#32 = .rejected (.badWidth 0x004) := by decide
theorem test_decode_filterWr :
    decodeCmd .if1 0xF0#8 = .xferWr .if1 ⟨true, true, true, false, false, false, false⟩ := by decide
theorem test_decode_txWr :
    decodeCmd .if1 0xF7#8 = .xferWr .if1 ⟨true, true, true, false, true, true, true⟩ := by decide
theorem test_decode_rxRd :
    decodeCmd .if2 0x7F#8 = .xferRd .if2 ⟨true, true, true, true, true, true, true⟩ := by decide
theorem test_decode_intclrRd :
    decodeCmd .if2 0x0C#8 = .xferRd .if2 ⟨false, false, false, true, true, false, false⟩ := by decide
theorem test_decodeTableWord :
    decodeTableWord 32 0x800C4D05 = some (.wrBt 0x4D05#16) ∧ decodeTableWord 32 0x80080000 = none ∧
    decodeTableWord 8 0x84 = some (.xferWr .if1 ⟨false, false, false, false, true, false, false⟩) := by decide

/-! ### A small state: clocked, out of reset, enabled (CNTL 0), everything else as reset leaves it -/

/-- The parameters of 95_test_vectors.md section 0, with a spin bound. -/
def params (spin : Option Nat) : Params := { clkHz := 12000000, maxSpin := spin, templateValid := false, peStrict := false, base := 0 }

/-- CNTL with only these bits. -/
def cntl (test cce ie init : Bool) : Cntl :=
  { test := test, cce := cce, dar := false, eie := false, sie := false, ie := ie, init := init }

/-- The enabled block. -/
def block : Block := { Block.zero with cntl := cntl false false false false }

/-- The disabled block. -/
def disabled : Block := { block with cntl := cntl false false false true }

/-- The ready machine with this block and schedule. -/
def ready (b : Block) (ts : List Turn := []) : State :=
  { State.reset with clkEn := true, rst := false, params := params none, block := b, turns := ts }

/-- The block with one object. -/
def withObj (n : Slot) (o : Obj) : Block := block.setObj n o

/-- The outcome is a next state with this property. -/
def gives (o : Host.Outcome State Fault Refusal) (p : State → Bool) : Bool :=
  match o with
  | .next t => p t
  | _ => false

theorem ready_ready (b : Block) (ts : List Turn) : Safety.Ready (ready b ts) := ⟨rfl, rfl, rfl⟩

/-! ### Register transactions (95_test_vectors.md 2.3) -/

/-- INTPND in OBJ[5] and OBJ[32] only. -/
def pendingBlock : Block := (withObj 4 { Obj.zero with intpnd := true }).setObj 31 { Obj.zero with intpnd := true }

theorem test_rdInt : (ready pendingBlock).readWord .int = 0x0005#16 := by
  rw [State.readWord_closed _ _ (by decide +kernel)]; decide +kernel
theorem test_rdInt_status : (ready { pendingBlock with statInt := true }).readWord .int = 0x8000#16 := by
  rw [State.readWord_closed _ _ (by decide +kernel)]; decide +kernel
theorem test_rdIr :
    (ready pendingBlock).readWord (.ir .lo) = 0x0010#16 ∧ (ready pendingBlock).readWord (.ir .hi) = 0x8000#16 := by
  rw [State.readWord_closed _ _ (by decide +kernel), State.readWord_closed _ _ (by decide +kernel)]; decide +kernel
theorem test_rdEc : (ready { block with ec := 0x8A05#16 }).readWord .ec = 0x8A05#16 := by
  rw [State.readWord_closed _ _ (by decide +kernel)]; decide +kernel
theorem test_rdStat :
    (ready { block with stat := { block.stat with boff := true, ewarn := true }, statInt := true }).usedWord .stat = 0x00C0#16 ∧
    gives (exec .rdStat (ready { block with statInt := true })) (fun t => !t.block.statInt) = true := by decide +kernel
theorem test_rdCntl_pending : (ready { block with initPending := true }).usedWord .cntl = 0x0001#16 := by decide +kernel
theorem test_rdCmdreq_busy :
    (ready { block with if1 := { Iface.zero with busy := true, slot := 4, msgnum := 5#6 } }).usedWord (.iface .if1 .cmdreq) =
      0x8005#16 := by decide +kernel

theorem test_wrStat_clears :
    gives (exec (.wrStat 0x0000#16) (ready { block with
      stat := { boff := true, ewarn := true, epass := false, rxok := true, txok := true, lec := 3#3 } }))
      (fun t => statWord t.block.stat == 0x00C0#16) = true := by decide +kernel
theorem test_wrStat_never_sets :
    gives (exec (.wrStat 0x00FF#16) (ready block)) (fun t => statWord t.block.stat == 0x0007#16) = true := by decide +kernel
theorem test_wrCntl_all : gives (exec (.wrCntl 0x00FF#16) (ready block)) (fun t => t.usedWord .cntl == 0x00EF#16) = true := by
  decide +kernel
theorem test_wrCntl_release :
    gives (exec (.wrCntl 0x00EE#16) (ready { block with cntl := { block.cntl with init := true } }))
      (fun t => t.usedWord .cntl == 0x00EF#16 && !t.block.cntl.init && t.block.initPending) = true := by decide +kernel
theorem test_wrBt :
    gives (exec (.wrBt 0xFFFF#16) (ready { block with cntl := cntl false true false true })) (fun t => t.block.bt == 0x7FFF#15) = true := by
  decide +kernel
theorem test_wrBt_pending :
    gives (exec (.wrBt 0x4D05#16) (ready { block with cntl := cntl false true false false, initPending := true }))
      (fun t => t.block.bt == 0#15 && t.faults == [.protectedWrite .bt 0x4D05#16]) = true := by decide +kernel
theorem test_wrClkdiv :
    gives (exec (.wrClkdiv 0#16) (ready block)) (fun t => t.faults == [.protectedWrite .clkdiv 0#16]) = true := by decide +kernel
theorem test_wrTest :
    gives (exec (.wrTest 0x0098#16) (ready { block with cntl := cntl true false false false }))
      (fun t => t.usedWord .test == 0x0018#16 && t.block.mode == .silentLoopback) = true := by decide +kernel
theorem test_wrTest_order :
    gives (exec (.wrTest 0x0004#16) (ready block)) (fun t => t.faults == [.protectedWrite .test 4#16]) = true ∧
    gives (exec (.wrTest 0x0020#16) (ready { block with cntl := cntl true false false false }))
      (fun t => t.faults == [.unmodelledTest 0x0020#16]) = true := by decide +kernel
theorem test_wrCmdreq :
    gives (exec (.wrIf1Cmdreq 0x0060#16) (ready { block with if1 := { Iface.zero with cmdmsk := 0xF0#8 } }))
      (fun t => t.block.if1.busy && t.block.if1.slot == 31 && t.block.if1.cmd == 0xF0#8 && t.block.if1.msgnum == 32#6) = true := by
  decide +kernel
theorem test_wrCmdreq_bad :
    gives (exec (.wrIf1Cmdreq 0x0021#16) (ready block))
      (fun t => t.faults == [.badMsgnum .if1 33#6] && !t.block.if1.busy && t.block.if1.msgnum == 0#6) = true := by decide +kernel
theorem test_wrIface_busy :
    gives (exec (.wrIf1Mctrl 0x1088#16) (ready { block with if1 := { Iface.zero with busy := true } }))
      (fun t => t.faults == [.ifBusy .if1 .mctrl] && t.block.if1.mctrl == 0#16) = true := by decide +kernel
theorem test_wrIf2Arb2 :
    gives (exec (.wrIf2Arb2 0x848C#16) (ready block)) (fun t => t.usedWord (.iface .if2 .arb2) == 0x848C#16) = true := by decide +kernel

/-! ### Transfers (95_test_vectors.md 2.5) -/

/-- The staging values of the write-transfer rows, MCTRL and command given, a transfer to OBJ[6] in flight. -/
def writeStart (c : Byte) (mctrl : Word) : State :=
  ready { block with if1 := { busy := true, slot := 5, cmd := c, msgnum := 6#6, cmdmsk := c, msk1 := 0xFFFF#16, msk2 := 0xDFFF#16,
                              arb1 := 0x5678#16, arb2 := 0xF234#16, mctrl := mctrl, da1 := 0x2211#16, da2 := 0x4433#16,
                              db1 := 0x6655#16, db2 := 0x8877#16 } }

theorem test_xferWr_all :
    gives (exec (decodeCmd .if1 0xF7#8) (writeStart 0xF7#8 0x1D05#16)) (fun t => t.block.obj 5 ==
      { Obj.zero with msk := 0x1FFFFFFF#29, mxtd := true, mdir := true, id := 0x12345678#29, msgval := true, xtd := true, dir := true,
                      umask := true, txie := true, rxie := true, txrqst := true, dlc := 5#4,
                      data := #v[0x11#8, 0x22#8, 0x33#8, 0x44#8, 0x55#8, 0x66#8, 0x77#8, 0x88#8] } && !t.block.if1.busy) = true := by
  decide +kernel
theorem test_xferWr_request :
    gives (exec (decodeCmd .if1 0x94#8) (writeStart 0x94#8 0x1C05#16)) (fun t => t.block.obj 5 ==
      { Obj.zero with umask := true, txie := true, rxie := true, txrqst := true, dlc := 5#4 }) = true := by decide +kernel

/-- OBJ[5] of the read-transfer rows. -/
def readObj : Obj :=
  { Obj.zero with msgval := true, id := 0x048C0000#29, msk := 0x1FFC0000#29, newdat := true, intpnd := true, umask := true, eob := true,
                  dlc := 8#4, data := #v[1#8, 2#8, 3#8, 4#8, 5#8, 6#8, 7#8, 8#8] }

/-- A transfer of OBJ[5] through IF2 in flight. -/
def readStart (c : Byte) : State :=
  ready { withObj 4 readObj with if2 := { Iface.zero with busy := true, slot := 4, cmd := c, msgnum := 5#6, cmdmsk := c } }

theorem test_xferRd_all :
    gives (exec (decodeCmd .if2 0x7F#8) (readStart 0x7F#8)) (fun t =>
      t.block.if2 == { busy := false, slot := 4, cmd := 0x7F#8, msgnum := 5#6, cmdmsk := 0x7F#8, msk1 := 0#16, msk2 := 0x1FFC#16,
                       arb1 := 0#16, arb2 := 0x848C#16, mctrl := 0xB088#16, da1 := 0x0201#16, da2 := 0x0403#16, db1 := 0x0605#16,
                       db2 := 0x0807#16 } &&
      t.block.obj 4 == { readObj with newdat := false, intpnd := false }) = true := by decide +kernel
theorem test_xferRd_order :
    gives (exec (decodeCmd .if2 0x1C#8) (readStart 0x1C#8)) (fun t =>
      t.block.if2.mctrl == 0xB088#16 && t.block.if2.arb2 == 0#16 && !(t.block.obj 4).newdat && !(t.block.obj 4).intpnd) = true := by
  decide +kernel

/-! ### Functions (95_test_vectors.md 2.1, 2.6, 1.6, 2.8) -/

theorem test_btCalc :
    btCalc 12000000 100000 0 = 0x4D05#32 ∧ btCalc 12000000 250000 0 = 0x3A02#32 ∧ btCalc 25 1 3 = 0x2C4#32 ∧ btCalc 24 1 0 = 0x2701#32 := by
  decide +kernel
theorem test_btCalc_none :
    btCalc 625 1 0 = 0#32 ∧ btCalc 12000000 4000000 0 = 0#32 ∧ btCalc 12000000 0 0 = 0#32 ∧ btCalc 16000000 10000 0 = 0#32 := by
  decide +kernel
/-- The first row of R136: 120 bit-clock periods and a sample point of 75 %. -/
theorem test_timing : bitPeriod (btDecode 0x4D05#32) = 120 ∧ samplePoint (btDecode 0x4D05#32) = 3 / 4 := by decide +kernel
theorem test_btcalc_domain :
    gives (exec (.btcalc 12000000 100000 4) (ready block)) (fun t => t.refused == some (.argDomain .btcalc (.rjw 4))) = true := by
  decide +kernel
theorem test_packFilter :
    gives (exec (.packFilter 0x456 0x700 .std) (ready block)) (fun t => t.main.ret == .filterWords 0#16 0x1C00#16 0#16 0x9158#16) = true ∧
    gives (exec (.packFilter 0x1FFFFFFF 1 .ext) (ready block))
      (fun t => t.main.ret == .filterWords 1#16 0x8000#16 0xFFFF#16 0xDFFF#16) = true := by decide +kernel
theorem test_packTx :
    gives (exec (.packTx { id := 0x123, fmt := .std, type := .remote, len := 2, data := #v[0x11#8, 0x22#8, 0#8, 0#8, 0#8, 0#8, 0#8, 0#8] })
      (ready block)) (fun t => t.main.ret == .txWords 0#16 0#16 0#16 0xA48C#16 0x1182#16 0x2211#16 0#16 0#16 0#16) = true := by decide +kernel
theorem test_packTx_ext :
    gives (exec (.packTx { id := 0x12345678, fmt := .ext, type := .data, len := 8,
                           data := #v[0xFF#8, 0xEE#8, 0xDD#8, 0xCC#8, 0xBB#8, 0xAA#8, 0x99#8, 0x88#8] }) (ready block))
      (fun t => t.main.ret ==
        .txWords 0#16 0x8000#16 0x5678#16 0xD234#16 0x1188#16 0xEEFF#16 0xCCDD#16 0xAABB#16 0x8899#16) = true := by decide +kernel
theorem test_unpackRx :
    gives (exec (.unpackRx 0xFFFF#16 0xA48F#16 0x000F#16 0x2211#16 0x4433#16 0x6655#16 0x8877#16) (ready block))
      (fun t => t.main.ret == .frame
        ⟨0x123, .std, .remote, 15, #v[0x11#8, 0x22#8, 0x33#8, 0x44#8, 0x55#8, 0x66#8, 0x77#8, 0x88#8]⟩) = true := by decide +kernel
theorem test_unpackRx_ext :
    (unpackRx 0xFFFF#16 0x7FFF#16 0x0009#16 0#16 0#16 0#16 0#16).id = 0x1FFFFFFF ∧
    (unpackRx 0xFFFF#16 0x7FFF#16 0x0009#16 0#16 0#16 0#16 0#16).type = .remote := by decide +kernel

/-! ### Procedures (95_test_vectors.md 2.2, 2.6 to 2.9) -/

theorem test_spin_stall :
    gives (exec (.spin .if2) { ready { block with if2 := { Iface.zero with busy := true } } (Safety.hosts 3) with params := params (some 2) })
      (fun t => t.main.ret == .stall && t.turns == [.host]) = true := by decide +kernel
theorem test_transfer_badSlot :
    gives (exec (.transfer .if1 0#16 0xF0#8) (ready block (Safety.hosts 4)))
      (fun t => t.main.ret == .ok && t.faults == [.badMsgnum .if1 0#6] && t.block.if1.cmdmsk == 0xF0#8) = true := by decide +kernel
/-- The low six bits of the slot operand name the slot (R150; log entry 29). -/
theorem test_transfer_wideSlot :
    gives (exec (.transfer .if1 0x0041#16 0x84#8) (ready block (Safety.transferTurns .if1)))
      (fun t => t.main.ret == .ok && t.faults.isEmpty && (t.block.obj 0).txrqst) = true := by decide +kernel
theorem test_clrTxok :
    gives (exec .clrTxok (ready { block with stat := { block.stat with rxok := true, txok := true, lec := 5#3 } } (Safety.hosts 2)))
      (fun t => statWord t.block.stat == 0x0015#16) = true := by decide +kernel
/-- A receive step between the read and the write: its RXOK is lost (R313). -/
theorem test_clrTxok_race :
    gives (exec .clrTxok (ready { withObj 0 { Obj.zero with msgval := true } with stat := { block.stat with txok := true } }
      [.host, .pe (.rxStore 0 (frameOf 0x123 .std 1) 0#3 0#18 false false), .host]))
      (fun t => statWord t.block.stat == 0#16 && (t.block.obj 0).newdat) = true := by decide +kernel
theorem test_clrRxok :
    gives (exec .clrRxok (ready { block with stat := { block.stat with rxok := true, txok := true } } (Safety.hosts 2)))
      (fun t => statWord t.block.stat == 0x0008#16) = true := by decide +kernel
theorem test_setCntl :
    gives (exec (.setCntl 0x0080#16) (ready { block with cntl := cntl false false false true } (Safety.hosts 2)))
      (fun t => t.usedWord .cntl == 0x0081#16) = true := by decide +kernel
theorem test_clrCntl :
    gives (exec (.clrCntl 0x0080#16) (ready { block with cntl := cntl true false true false } (Safety.hosts 2)))
      (fun t => t.usedWord .cntl == 0x0002#16) = true := by decide +kernel
theorem test_enable :
    gives (exec .enable (ready { block with cntl := cntl true false false true } [.host, .host, .host, .pe .initAck, .host]))
      (fun t => t.main.ret == .ok && t.usedWord .cntl == 0x0080#16) = true := by decide +kernel
theorem test_setBitrate :
    gives (exec (.setBitrate 250000) (ready block (Safety.hosts 5 ++ [.pe .initAck, .host])))
      (fun t => t.main.ret == .value 1 && t.block.bt == 0x3A02#15 && t.block.clkdiv == 0#16 && t.usedWord .cntl == 0#16) = true := by
  decide +kernel
theorem test_setBitrate_stall :
    gives (exec (.setBitrate 250000) { ready block (Safety.hosts 9) with params := params (some 3) })
      (fun t => t.main.ret == .stall && t.block.initPending && t.turns == [.host]) = true := by decide +kernel
theorem test_installFilter :
    gives (exec (.installFilter 0x123 0x7FF .std 0)
      (ready ((withObj 0 { Obj.zero with msgval := true }).setObj 2 { Obj.zero with msgval := true })
        (Safety.hosts 7 ++ Safety.transferTurns .if1)))
      (fun t => t.main.ret == .value 2 && t.block.obj 1 == { Obj.zero with
        msgval := true, id := 0x048C0000#29, msk := 0x1FFC0000#29, umask := true, eob := true, dlc := 8#4 }) = true := by decide +kernel
/-- MSGV1 0xFFFF, MSGV2 0xFFFF but for slot 32: no filter slot is free, and slot 32 is not looked at (C8, R193). -/
theorem test_installFilter_full :
    gives (exec (.installFilter 0x123 0x7FF .std 0)
      (ready { block with objs := (Vector.replicate 32 { Obj.zero with msgval := true }).set 31 Obj.zero } (Safety.hosts 2)))
      (fun t => t.main.ret == .fail .noFreeFilterSlot) = true := by decide +kernel
theorem test_send :
    gives (exec (.send { id := 0x123, fmt := .std, type := .data, len := 2, data := #v[0x11#8, 0x22#8, 0#8, 0#8, 0#8, 0#8, 0#8, 0#8] } 0)
      (ready { block with stat := { block.stat with txok := true } } (Safety.hosts 11 ++ Safety.transferTurns .if1 ++ Safety.hosts 2)))
      (fun t => t.main.ret == .value 1 && statWord t.block.stat == 0#16 && t.block.obj 31 == { Obj.zero with
        msgval := true, id := 0x048C0000#29, umask := true, txrqst := true, eob := true, dlc := 2#4,
        data := #v[0x11#8, 0x22#8, 0#8, 0#8, 0#8, 0#8, 0#8, 0#8] }) = true := by decide +kernel
theorem test_send_busy :
    gives (exec (.send (frameOf 0x123 .std 2) 0) (ready (withObj 31 { Obj.zero with msgval := true, txrqst := true }) (Safety.hosts 3)))
      (fun t => t.main.ret == .fail .txSlotBusy && t.turns == [.host] &&
        t.block == withObj 31 { Obj.zero with msgval := true, txrqst := true }) = true := by decide +kernel
theorem test_txStatus :
    txStateOf 0x7FFF#16 1 = .idle ∧ txStateOf 0xFFFF#16 1 = .busy ∧ txStateOf 0x4000#16 2 = .available ∧ txStateOf 0xC000#16 2 = .busy := by
  decide
theorem test_receive :
    gives (exec (.receive 0)
      (ready (withObj 2 { Obj.zero with msgval := true, id := 0x048C0000#29, newdat := true, dlc := 1#4 })
        (Safety.hosts 3 ++ Safety.transferTurns .if2 ++ Safety.hosts 9)))
      (fun t => t.main.ret == .frame (frameOf 0x123 .std 1) && !(t.block.obj 2).newdat) = true := by decide +kernel
theorem test_receive_none :
    gives (exec (.receive 0) (ready (withObj 31 { Obj.zero with newdat := true }) (Safety.hosts 3)))
      (fun t => t.main.ret == .fail .noNewData) = true := by decide +kernel
theorem test_errCounts :
    gives (exec .rxErrCount (ready { block with ec := 0x8A05#16 } [.host])) (fun t => t.main.ret == .byte 0x0A#8) = true ∧
    gives (exec .txErrCount (ready { block with ec := 0x7FFF#16 } [.host])) (fun t => t.main.ret == .byte 0xFF#8) = true := by decide +kernel
theorem test_setMode :
    gives (exec (.setMode .silentLoopback) (ready block (Safety.hosts 5)))
      (fun t => t.main.ret == .value 1 && t.block.mode == .silentLoopback) = true := by decide +kernel
theorem test_monitor :
    gives (exec (.monitor true) (ready { block with cntl := cntl true false false false, test := { lback := true, silent := false } }
      (Safety.hosts 4))) (fun t => t.block.mode == .silentLoopback) = true ∧
    gives (exec (.monitor false) (ready { block with cntl := cntl true false false false, test := { lback := true, silent := true } }
      (Safety.hosts 4))) (fun t => t.block.mode == .normal && t.block.test.lback && !t.block.test.silent) = true := by decide +kernel
/-- R239, R313: an INIT the engine sets after monitor(off) has read CNTL is cleared by its write (log entry 28). -/
theorem test_monitor_race :
    gives (exec (.monitor false) (ready { block with cntl := cntl true false false false }
      [.host, .pe (.error 0#16 true false false 0#3 false), .host, .host, .host]))
      (fun t => t.main.ret == .ok && !t.block.cntl.init && t.block.initPending) = true := by decide +kernel
theorem test_teardown :
    gives (exec .teardown (ready { block with cntl := cntl false false true false } (Safety.hosts 6)))
      (fun t => t.reg == Registration.empty && !t.hostIe && !t.admitted && t.block.cntl.init) = true := by decide +kernel
theorem test_irqRegister :
    gives (exec (.irqRegister 1 7) (ready block (Safety.hosts 4)))
      (fun t => t.reg == { cb := some 1, token := some 7, rxEn := false, txEn := false } && t.hostIe && t.usedWord .cntl == 0x000E#16) = true := by
  decide +kernel

theorem test_irqUnregister :
    gives (exec .irqUnregister { ready { block with cntl := cntl false false true false } (Safety.hosts 4) with hostIe := true })
      (fun t => t.reg == Registration.empty && !t.hostIe && t.usedWord .cntl == 0#16) = true := by decide +kernel
theorem test_irqEnableClass :
    gives (exec (.irqEnableClass .rx true) (ready block)) (fun t => t.reg.rxEn && !t.reg.txEn) = true := by decide +kernel
/-- Program P1 from power-up. -/
theorem test_init :
    gives (exec (.init 0 0) { ready Block.zero (Safety.hosts 10 ++ [.pe .initAck, .host] ++ Safety.templateTurns) with
      clkEn := false, rst := true })
      (fun t => t.main.ret == .ok && t.block.bt == 0x4D05#15 && t.block.mode == .normal && t.block.if1.mctrl == 0x1080#16 &&
        t.block.obj 30 == { Obj.zero with umask := true, eob := true, dlc := 8#4 } &&
        t.block.obj 31 == { Obj.zero with umask := true, eob := true }) = true := by decide +kernel
/-- The two environment actions of reset abandon a transfer; the templates are still to come. -/
theorem test_reset :
    gives (exec .reset (ready { block with if1 := { Iface.zero with busy := true } } (Safety.hosts 2)))
      (fun t => t.block.cntl.init && !t.block.if1.busy && t.admitted && !t.main.calls.isEmpty) = true := by decide +kernel
theorem test_installTemplates :
    gives (exec .installTemplates { ready block Safety.templateTurns with params := { params none with templateValid := true } })
      (fun t => (t.block.obj 16).msgval && (t.block.obj 31).dlc == 0#4) = true := by decide +kernel

/-! ### The protocol engine and the dispatch (95_test_vectors.md 2.6, 2.10, 2.12, 1.7) -/

theorem test_accepts :
    let o1 : Obj := { Obj.zero with msgval := true, id := 0x048C0000#29, msk := 0x1FFC0000#29, umask := true, eob := true, dlc := 8#4 }
    o1.accepts (frameOf 0x123 .std 0) = true ∧ o1.accepts (frameOf 0x124 .std 0) = false ∧
    o1.accepts (frameOf 0x048C1234 .ext 0) = true ∧ o1.accepts (frameOf 0x12345678 .ext 0) = false := by decide +kernel
theorem test_rxStore :
    let s := ready (withObj 0 { Obj.zero with msgval := true, newdat := true })
    let t := s.peStep (.rxStore 0 { frameOf 0x123 .std 1 with data := #v[0x5A#8, 0#8, 0#8, 0#8, 0#8, 0#8, 0#8, 0#8] } 0#3 0#18 true false)
    t.block.obj 0 = { Obj.zero with msgval := true, id := 0x048C0000#29, newdat := true, msglst := true, intpnd := true, dlc := 1#4,
                                    data := #v[0x5A#8, 0#8, 0#8, 0#8, 0#8, 0#8, 0#8, 0#8] } ∧ t.block.stat.rxok = true := by decide +kernel
/-- Of an identifier wider than its format the object takes the bits it has room for (log entry 9). -/
theorem test_rxStore_wide :
    ((ready (withObj 0 { Obj.zero with msgval := true })).peStep
      (.rxStore 0 (frameOf 0x923 .std 1) 0#3 0#18 false false)).block.obj 0 =
      { Obj.zero with msgval := true, id := 0x048C0000#29, newdat := true, dlc := 1#4 } := by decide +kernel
theorem test_peError :
    let t := (ready { block with cntl := cntl false false true false }).peStep (.error 0x8A05#16 true true true 0#3 true)
    t.block.ec = 0x8A05#16 ∧ t.block.cntl.init = true ∧ t.block.statInt = true ∧ t.block.mode = .disabled := by decide +kernel
theorem test_txDone_offBus :
    let b : Block := { withObj 31 { Obj.zero with msgval := true, txrqst := true } with initPending := true }
    (ready b).peStep (.txDone 31 0#3 true true) = ready b := by decide +kernel

/-- A state in which a dispatch may start: IE, the host's enable, and callback 1 with token 7. -/
def interrupted (b : Block) (rx : Bool) (ts : List Turn) : State :=
  { ready { b with cntl := cntl false false true false } ts with
    hostIe := true, reg := { cb := some 1, token := some 7, rxEn := rx, txEn := false } }

theorem test_dispatch_status :
    gives (exec .dispatch (interrupted { block with stat := { block.stat with boff := true, ewarn := true }, statInt := true } false
      (Safety.hosts 6))) (fun t => t.delivered.map (·.event) == [.busOff, .errorWarning] && !t.block.statInt && t.irq.calls.isEmpty) = true := by
  decide +kernel
/-- R282 case 6: with no callback registered RXOK and TXOK are cleared all the same. -/
theorem test_dispatch_noCallback :
    gives (exec .dispatch { interrupted { block with stat := { block.stat with rxok := true, txok := true }, statInt := true } false
        (Safety.hosts 8) with reg := Registration.empty })
      (fun t => t.delivered.isEmpty && statWord t.block.stat == 0#16 && !t.block.statInt && t.irq.calls.isEmpty) = true := by
  decide +kernel
theorem test_dispatch_object :
    gives (exec .dispatch (interrupted (withObj 2 { Obj.zero with newdat := true, intpnd := true }) true
      (.host :: Safety.transferTurns .if2 ++ Safety.hosts 2)))
      (fun t => t.delivered == [{ cb := 1, token := some 7, event := .rx, arg := 3#16 }] && t.block.obj 2 == Obj.zero) = true := by
  decide +kernel

/-! ### The step (R9, R11, R293, R301, R305) -/

/-- An interface with a transfer to OBJ[1] in flight. -/
def busyIface : Iface := { Iface.zero with busy := true, msgnum := 1#6 }

/-- The block with both interfaces busy. -/
def busyBlock : Block := { block with if1 := busyIface, if2 := busyIface }

/-- Part selects, none set. -/
def noParts : Parts := ⟨false, false, false, false, false, false, false⟩

/-- At power-up no transaction is admitted; once init has run, a word is fetched and runs. -/
theorem test_step_powerUp :
    ({ State.reset with program := [.word 0x80080000#32], turns := [.host] } : State).hostMove = .stuck := by decide +kernel
theorem test_step_word :
    gives (step ((ready block).withFetchWord 32 0x80000041)) (fun t => t.usedWord .cntl == 0x0041#16) = true := by decide +kernel
theorem test_step_command :
    gives (step ((ready block).withFetchWord 8 0x84)) (fun t => (t.block.obj 0).txrqst && !t.block.if1.busy) = true := by decide +kernel
theorem test_step_refused :
    gives (step ((ready block).withFetchWord 32 0x90080000)) (fun t => t.refused == some (.badOffset 0x90080000)) = true := by decide +kernel

/-- R293: the clock off and on again keeps the block; in between no word is admitted. -/
theorem test_step_clock :
    gives (step { ready busyBlock [.host] with program := [.envClock false] })
      (fun t => !t.admitted && t.block == busyBlock) = true ∧
    gives (step { ready busyBlock [.host] with clkEn := false, program := [.envClock true] })
      (fun t => t.admitted && t.block == busyBlock) = true := by decide +kernel
/-- R9: a completion of a transfer in HOST_MAIN's program moves nothing (log entry 18). -/
theorem test_step_pass :
    gives (step { ready busyBlock [.host] with program := [.call (.xferWr .if1 noParts)] })
      (fun t => t.block == busyBlock && t.program.isEmpty) = true := by decide +kernel

/-! ### Witnesses: for each statement with hypotheses, a concrete state and operands that meet them, for each clause at a boundary -/

/-- HOST_MAIN about to issue an operation. -/
def issuing (op : HostOp) : State := { ready block [.host] with program := [op] }

theorem issuing_issues (op : HostOp) : Safety.Issues (issuing op) op [] := ⟨rfl, rfl, rfl, rfl, rfl⟩

theorem no_register_at_2 : ∀ r, regOffset r ≠ 2 := by
  intro r
  rcases r with _ | _ | _ | _ | _ | _ | ⟨_ | _, _ | _ | _ | _ | _ | _ | _ | _ | _ | _ | _⟩ | ⟨_ | _⟩ | ⟨_ | _⟩ | ⟨_ | _⟩ | ⟨_ | _⟩ | _ <;> decide

theorem witness_BusDecoding :
    (0x10040000#32).extractLsb' 28 3 ≠ 0#3 ∧
    ((0x00020000#32).extractLsb' 28 3 = 0#3 ∧ ∀ r, regOffset r ≠ ((0x00020000#32).extractLsb' 16 12).toNat) ∧
    (regOffset .stat = ((0x00040000#32).extractLsb' 16 12).toNat ∧ (0x00040000#32).getLsbD 31 = false) ∧
    (regOffset .ec = ((0x80080000#32).extractLsb' 16 12).toNat ∧ (0x80080000#32).getLsbD 31 = true ∧ Safety.readOnly .ec = true) ∧
    (regOffset .clkdiv = ((0x81800000#32).extractLsb' 16 12).toNat ∧ (0x81800000#32).getLsbD 31 = true ∧
      Safety.readOnly .clkdiv = false) :=
  ⟨by decide, ⟨by decide, no_register_at_2⟩, by decide, by decide, by decide⟩
theorem witness_RoundTrip :
    wellFormed (.wrCntl 0xFFFF#16) = true ∧ encode (.wrCntl 0xFFFF#16) = some (.bus 0x8000FFFF#32) ∧
    (busOp (.wrCntl 0xFFFF#16)).isSome = true ∧ wellFormed (.xferWr .if1 noParts) = true := by decide
theorem witness_EncodeDecode :
    decode (.bus 0x00001234#32) = .instr .rdCntl ∧ decode (.cmd .if2 0x0C#8) = .instr (.xferRd .if2 ⟨false, false, false, true, true, false, false⟩) := by
  decide
theorem witness_CommandWords : (ready busyBlock).xferEnabled .if1 = true ∧ (ready busyBlock).xferEnabled .if2 = true := by decide +kernel
theorem witness_AccessWidths :
    (∀ op, (issuing op).clkEn = true ∧ (issuing op).rst = false ∧ Safety.Issues (issuing op) op []) ∧
    (∀ op, (issuing op).params.base = 0) ∧ (∀ r, regOffset r ≠ 2) ∧
    regOffset .cntl = 0 ∧ Safety.readOnly .cntl = false ∧ regOffset .clkdiv = 0x180 ∧ regOffset .ec = 8 ∧ Safety.readOnly .ec = true :=
  ⟨fun op => ⟨rfl, rfl, issuing_issues op⟩, fun _ => rfl, no_register_at_2, rfl, rfl, rfl, rfl, rfl⟩
theorem witness_StepRunsDecoded :
    Safety.Issues (issuing (.word 0x80000041#32)) (.word 0x80000041#32) [] ∧ decode (.bus 0x80000041#32) = .instr (.wrCntl 0x41#16) ∧
    wellFormed (.wrCntl 0x41#16) = true ∧
    Safety.Issues (issuing (.call .enable)) (.call .enable) [] ∧ busOp .enable = none ∧
    Safety.Issues (issuing (.call .rdCntl)) (.call .rdCntl) [] ∧ (issuing (.call .rdCntl)).clkEn = true ∧
    (issuing (.call .rdCntl)).rst = false ∧
    (∀ k p, Instr.enable ≠ .xferWr k p ∧ Instr.enable ≠ .xferRd k p) ∧
    Safety.Issues (issuing (.word 0x00020000#32)) (.word 0x00020000#32) [] ∧ decode (.bus 0x00020000#32) = .rejected (.badOffset 2) ∧
    (∀ b, Safety.Issues (issuing (.envClock b)) (.envClock b) [] ∧ Safety.Issues (issuing (.envReset b)) (.envReset b) []) ∧
    Safety.Issues (issuing (.call (.xferRd .if2 noParts))) (.call (.xferRd .if2 noParts)) [] ∧
    Safety.Issues (issuing (.call .dispatch)) (.call .dispatch) [] :=
  ⟨issuing_issues _, by decide, rfl, issuing_issues _, rfl, issuing_issues _, rfl, rfl, fun _ _ => ⟨nofun, nofun⟩, issuing_issues _,
   by decide, fun _ => ⟨issuing_issues _, issuing_issues _⟩, issuing_issues _, issuing_issues _⟩
theorem witness_StepRunsAgents :
    ((ready busyBlock [.xfer .if1]).refused = none ∧ (ready busyBlock [.xfer .if1]).turns = [.xfer .if1] ∧
      (ready busyBlock [.xfer .if1]).xferEnabled .if1 = true) ∧
    (ready block [.xfer .if2]).xferEnabled .if2 = false ∧
    ((interrupted pendingBlock true [.irq]).refused = none ∧ (interrupted pendingBlock true [.irq]).turns = [.irq] ∧
      (interrupted pendingBlock true [.irq]).mayDispatch = true) ∧
    (ready block [.irq]).mayDispatch = false ∧
    ({ ready block with refused := some (.badOffset 2) } : State).refused = some (.badOffset 2) := by decide +kernel

/-- A gated machine with one action of a call in progress. -/
def gated (m : Micro) : State :=
  { State.reset with main := { HostCtx.idle with calls := [.proc [m]] }, reg := { Registration.empty with cb := some 1 } }

theorem witness_GatedBlock :
    (State.reset.clkEn = false ∧ State.reset.rst = true) ∧
    ∀ m, (gated m).clkEn = false ∧ (gated m).refused = none ∧ ((gated m).ctx (gated m).running).calls = [.proc [m]] ∧
      (gated m).reg.cb = some 1 :=
  ⟨⟨rfl, rfl⟩, fun _ => ⟨rfl, rfl, rfl, rfl⟩⟩
theorem witness_RdCntl : (ready block).clkEn = true ∧ (ready block).rst = false := ⟨rfl, rfl⟩
theorem witness_RdStat : (ready { block with statInt := true }).clkEn = true ∧ (ready { block with statInt := true }).rst = false := ⟨rfl, rfl⟩
theorem witness_RdPlain :
    let s := ready { block with cntl := cntl true false false false }
    s.clkEn = true ∧ s.rst = false ∧ s.block.cntl.test = true := ⟨rfl, rfl, rfl⟩
theorem witness_RdBitmaps :
    (ready pendingBlock).clkEn = true ∧ (ready pendingBlock).rst = false ∧ slotNumber 0 ≤ 16 ∧ slotNumber 15 ≤ 16 ∧
    17 ≤ slotNumber 16 ∧ 17 ≤ slotNumber 31 := by decide +kernel
theorem witness_RdInt :
    (ready { pendingBlock with statInt := true }).block.statInt = true ∧
    (let s := ready (withObj 31 { Obj.zero with intpnd := true })
     s.clkEn = true ∧ s.rst = false ∧ s.block.statInt = false ∧ (s.block.obj 31).intpnd = true ∧
     ∀ m : Slot, m < 31 → (s.block.obj m).intpnd = false) ∧
    ((ready block).block.statInt = false ∧ ∀ m : Slot, ((ready block).block.obj m).intpnd = false) := by decide +kernel
theorem witness_RdInterface :
    (ready block).clkEn = true ∧ (ready block).rst = false ∧ ((ready block).block.iface .if1).busy = false ∧
    ((ready block).block.iface .if2).busy = false := ⟨rfl, rfl, rfl, rfl⟩
theorem witness_ReadFrame : ∃ t, exec (readOp .stat) (ready { block with statInt := true }) = .next t := ⟨_, rfl⟩
theorem witness_WrCntl :
    (let s := ready { block with cntl := cntl false false false true }
     s.clkEn = true ∧ s.rst = false ∧ (0x0041#16).getLsbD 0 = true ∧ (0x0040#16).getLsbD 0 = false ∧ s.block.cntl.init = true) ∧
    (ready { block with initPending := true }).block.cntl.init = false := by decide +kernel
theorem witness_WrStat : (ready block).clkEn = true ∧ (ready block).rst = false := ⟨rfl, rfl⟩
theorem witness_ProtectedWrites :
    (let s := ready { block with cntl := cntl true true false true }
     s.clkEn = true ∧ s.rst = false ∧ s.block.cntl.init = true ∧ s.block.cntl.cce = true ∧ s.block.cntl.test = true) ∧
    ((ready block).block.cntl.init = false ∧ (ready block).block.cntl.test = false) ∧
    (ready { block with cntl := cntl false false false true }).block.cntl.cce = false ∧
    (0x0004#16).getLsbD 2 = true ∧ (0x0020#16).extractLsb' 5 2 ≠ 0#2 ∧
    ((0x0098#16).getLsbD 2 = false ∧ (0x0098#16).extractLsb' 5 2 = 0#2) := by decide +kernel
theorem witness_WrCmdreq :
    ((ready busyBlock).clkEn = true ∧ (ready busyBlock).rst = false ∧ ((ready busyBlock).block.iface .if2).busy = true) ∧
    ((ready block).block.iface .if1).busy = false ∧ ((0x0040#16).extractLsb' 0 6).toNat = 0 ∧
    32 < ((0x0021#16).extractLsb' 0 6).toNat ∧ ((0x0001#16).extractLsb' 0 6).toNat = slotNumber 0 ∧
    ((0x0060#16).extractLsb' 0 6).toNat = slotNumber 31 := by decide +kernel
theorem witness_WrStaging :
    ((ready busyBlock).clkEn = true ∧ (ready busyBlock).rst = false ∧ writeOp (.iface .if2 .db2) 5#16 = some (.wrIf2Db2 5#16) ∧
      ((ready busyBlock).block.iface .if2).busy = true) ∧
    ((ready block).block.iface .if1).busy = false := by decide +kernel
theorem witness_WriteFrame :
    writeOp .test 4#16 = some (.wrTest 4#16) ∧ ∃ t, exec (.wrTest 4#16) (ready block) = .next t ∧ t.faults ≠ [] :=
  ⟨rfl, _, rfl, by decide +kernel⟩
theorem witness_XferWr : (writeStart 0xF7#8 0x1D05#16).xferEnabled .if1 = true := by decide +kernel
theorem witness_XferRd :
    (readStart 0x7F#8).xferEnabled .if2 = true ∧ (partsOf 0x7F#8).mask = true ∧ (partsOf 0x0C#8).mask = false := by decide +kernel

theorem witness_BtSearch :
    let fits := fun clk rate p => clk / rate / 24 ≤ p ∧ p < clk / rate / 4 ∧ (p + 1) ∣ clk / rate ∧ 4 ≤ clk / rate / (p + 1) ∧
      clk / rate / (p + 1) ≤ 25
    (∀ p, ¬ fits 3 1 p) ∧ (fits 1200 1 59 ∧ ∀ q, q < 59 → ¬ fits 1200 1 q) ∧ (fits 1344 1 63 ∧ ∀ q, q < 63 → ¬ fits 1344 1 q) ∧
    (fits 625 1 124 ∧ ∀ q, q < 124 → ¬ fits 625 1 q) := by
  refine ⟨?_, ⟨by decide, by decide⟩, ⟨by decide, by decide⟩, ⟨by decide, by decide⟩⟩
  intro p h
  omega
theorem witness_BtProperties :
    (∃ t, exec (.btcalc 25 1 3) (ready block) = .next t ∧ (t.ctx (ready block).running).ret = .timing 0x2C4#32) ∧
    (∃ t, exec (.btcalc 3 1 3) (ready block) = .next t ∧ (t.ctx (ready block).running).ret = .timing 0#32) ∧
    (∀ p x, 1 ≤ x → x ≤ 22 → p ≤ 63 → (x + 3) * (p + 1) ≠ 3 / 1) := by
  refine ⟨⟨_, rfl, by decide +kernel⟩, ⟨_, rfl, by decide +kernel⟩, ?_⟩
  intro p x h1 _ _ h
  have : 4 * 1 ≤ (x + 3) * (p + 1) := Nat.mul_le_mul (by omega) (by omega)
  omega
theorem witness_SegmentTable : (1 ≤ 1 ∧ 0 ≤ 7 ∧ 1 ≤ 1 - 0 ∧ 1 - 0 ≤ 15) ∧ (22 ≤ 22 ∧ 7 ≤ 7 ∧ 1 ≤ 22 - 7 ∧ 22 - 7 ≤ 15) := by decide
theorem witness_PackFilter : Fmt.maxId .ext = 0x1FFFFFFF ∧ Fmt.maxId .std = 0x7FF := by decide
theorem witness_PackTx :
    (frameOf 0x7FF .std 8).id ≤ Fmt.maxId .std ∧ (frameOf 0x7FF .std 8).len ≤ 8 ∧
    (frameOf 0x1FFFFFFF .ext 0).id ≤ Fmt.maxId .ext ∧ (frameOf 0x1FFFFFFF .ext 0).len ≤ 8 := by decide
theorem witness_DomainRefusals :
    (ready block).refused = none ∧ 3 < 4 ∧ Fmt.maxId .std < 0x800 ∧ Fmt.maxId .ext < 0x20000000 ∧ 32 < 33 ∧
    8 < (frameOf 0x123 .std 9).len ∧ (frameOf 0x800 .std 0).fmt.maxId < (frameOf 0x800 .std 0).id := by decide +kernel

/-- The ready machine with a spin bound. -/
def bounded (m : Nat) (b : Block) (ts : List Turn) : State := { ready b ts with params := params (some m) }

theorem witness_Spin :
    (Safety.Ready (ready block [.host]) ∧ ((ready block [.host]).block.iface .if1).busy = false ∧ (ready block [.host]).turns = .host :: []) ∧
    (let s := bounded 3 busyBlock (Safety.hosts 2 ++ [.xfer .if1, .host])
     Safety.Ready s ∧ (s.block.iface .if1).busy = true ∧ (∀ m, s.params.maxSpin = some m → 2 < m) ∧
     s.turns = Safety.hosts 2 ++ [.xfer .if1, .host] ++ []) ∧
    (let s := bounded 0 busyBlock (Safety.hosts 1)
     Safety.Ready s ∧ (s.block.iface .if1).busy = true ∧ s.params.maxSpin = some 0 ∧ s.turns = Safety.hosts (max 0 1) ++ []) ∧
    (let s := ready busyBlock (Safety.hosts 4)
     Safety.Ready s ∧ (s.block.iface .if1).busy = true ∧ s.params.maxSpin = none ∧ s.turns = Safety.hosts 4) :=
  ⟨⟨⟨rfl, rfl, rfl⟩, rfl, rfl⟩, ⟨⟨rfl, rfl, rfl⟩, rfl, fun m h => by cases h; decide, rfl⟩, ⟨⟨rfl, rfl, rfl⟩, rfl, rfl, rfl⟩,
   ⟨rfl, rfl, rfl⟩, rfl, rfl, rfl⟩
theorem witness_Transfer :
    (let s := ready block (Safety.transferTurns .if1)
     Safety.Ready s ∧ (s.block.iface .if1).busy = false ∧ s.turns = Safety.transferTurns .if1 ++ []) ∧
    ((1#16).extractLsb' 0 6).toNat = slotNumber 0 ∧ ((32#16).extractLsb' 0 6).toNat = slotNumber 31 ∧
    ((0#16).extractLsb' 0 6).toNat = 0 ∧ 32 < ((33#16).extractLsb' 0 6).toNat ∧
    (ready block (Safety.hosts 4)).turns = Safety.hosts 4 ++ [] :=
  ⟨⟨⟨rfl, rfl, rfl⟩, rfl, rfl⟩, by decide, by decide, by decide, by decide, rfl⟩
theorem witness_ReadModifyWrites :
    Safety.Ready (ready block [.host, .host]) ∧ (ready block [.host, .host]).turns = .host :: .host :: [] := ⟨⟨rfl, rfl, rfl⟩, rfl⟩

theorem witness_Enable :
    (Safety.Ready (ready block [.host]) ∧ (ready block [.host]).turns = Safety.enableTurns block ++ [] ∧ block.initReads = false) ∧
    (Safety.Ready (ready disabled [.host, .host, .pe .initAck, .host]) ∧
      (ready disabled [.host, .host, .pe .initAck, .host]).turns = Safety.enableTurns disabled ++ [] ∧ disabled.initReads = true) ∧
    (let s := bounded 3 disabled (Safety.hosts (2 + 2) ++ [.pe .initAck, .host])
     Safety.Ready s ∧ (∀ m, s.params.maxSpin = some m → 2 < m) ∧ s.turns = Safety.hosts (2 + 2) ++ [.pe .initAck, .host] ++ []) ∧
    (let s := bounded 0 disabled (Safety.hosts 2 ++ Safety.stallTurns 0)
     Safety.Ready s ∧ s.params.maxSpin = some 0 ∧ s.turns = Safety.hosts 2 ++ Safety.stallTurns 0 ++ []) ∧
    (let s := ready disabled (Safety.hosts (2 + 5))
     Safety.Ready s ∧ s.params.maxSpin = none ∧ s.turns = Safety.hosts (2 + 5)) :=
  ⟨⟨⟨rfl, rfl, rfl⟩, rfl, rfl⟩, ⟨⟨rfl, rfl, rfl⟩, rfl, rfl⟩, ⟨⟨rfl, rfl, rfl⟩, fun m h => by cases h; decide, rfl⟩,
   ⟨⟨rfl, rfl, rfl⟩, rfl, rfl⟩, ⟨rfl, rfl, rfl⟩, rfl, rfl⟩
theorem witness_InstallTemplates :
    let s := ready block Safety.templateTurns
    Safety.Ready s ∧ s.block.if1.busy = false ∧ s.turns = Safety.templateTurns ++ [] := ⟨⟨rfl, rfl, rfl⟩, rfl, by simp [ready]⟩
theorem witness_SetBitrate :
    Safety.Ready (ready block) ∧ btCalc (ready block).params.clkHz 4000000 0 = 0#32 ∧ btCalc (ready block).params.clkHz 250000 0 ≠ 0#32 ∧
    (ready block (Safety.hosts 5 ++ [.pe .initAck, .host])).turns =
      Safety.hosts 5 ++ (if block.initReads then [] else [.pe .initAck, .host]) ++ [] ∧
    (ready disabled (Safety.hosts 5)).turns = Safety.hosts 5 ++ (if disabled.initReads then [] else [.pe .initAck, .host]) ++ [] ∧
    (let s := bounded 0 block (Safety.hosts 5 ++ Safety.stallTurns 0)
     Safety.Ready s ∧ btCalc s.params.clkHz 250000 0 ≠ 0#32 ∧ s.block.initReads = false ∧ s.params.maxSpin = some 0 ∧
     s.turns = Safety.hosts 5 ++ Safety.stallTurns 0 ++ []) :=
  ⟨⟨rfl, rfl, rfl⟩, by decide +kernel, by decide +kernel, rfl, rfl, ⟨rfl, rfl, rfl⟩, by decide +kernel, rfl, rfl, rfl⟩
theorem witness_InstallFilter :
    let s := ready block (Safety.hosts 5 ++ Safety.transferTurns .if1)
    Safety.Ready s ∧ 0x7FF ≤ Fmt.maxId .std ∧ 0x1FFFFFFF ≤ Fmt.maxId .ext ∧ s.block.if1.busy = false ∧
    s.turns = Safety.hosts 5 ++ Safety.transferTurns .if1 ++ [] ∧ slotNumber 0 = 1 ∧ slotNumber 31 = 32 :=
  ⟨⟨rfl, rfl, rfl⟩, by decide, by decide, rfl, rfl, rfl, rfl⟩

/-- Every object valid but one. -/
def allValidBut (n : Slot) : Block := { block with objs := (Vector.replicate 32 { Obj.zero with msgval := true }).set n.val Obj.zero n.isLt }

theorem witness_InstallFilterScan :
    (let s := ready (allValidBut 30) (Safety.hosts 7 ++ Safety.transferTurns .if1)
     Safety.Ready s ∧ (s.block.obj 30).msgval = false ∧ (∀ m : Slot, m < 30 → (s.block.obj m).msgval = true) ∧ s.block.if1.busy = false ∧
     s.turns = Safety.hosts 7 ++ Safety.transferTurns .if1 ++ []) ∧
    (let s := ready (allValidBut 31) [.host, .host]
     Safety.Ready s ∧ (∀ m : Slot, m.val ≤ 30 → (s.block.obj m).msgval = true) ∧ s.turns = .host :: .host :: []) :=
  ⟨⟨⟨rfl, rfl, rfl⟩, by decide +kernel, by decide +kernel, rfl, rfl⟩, ⟨rfl, rfl, rfl⟩, by decide +kernel, rfl⟩

/-- The schedule of a send on an enabled controller. -/
def sendTurns : List Turn := Safety.enableTurns block ++ Safety.hosts 10 ++ Safety.transferTurns .if1 ++ Safety.hosts 2

theorem witness_Send :
    (let b := withObj 31 { Obj.zero with txrqst := true }
     let s := ready b (Safety.enableTurns b ++ [.host])
     Safety.Ready s ∧ (s.block.obj 31).txrqst = true ∧ s.turns = Safety.enableTurns s.block ++ .host :: []) ∧
    (let s := ready block sendTurns
     Safety.Ready s ∧ (s.block.obj 31).txrqst = false ∧ s.block.if1.busy = false ∧
     s.turns = Safety.enableTurns s.block ++ Safety.hosts 10 ++ Safety.transferTurns .if1 ++ Safety.hosts 2 ++ []) ∧
    (frameOf 0x7FF .std 8).id ≤ (frameOf 0x7FF .std 8).fmt.maxId ∧ (frameOf 0x7FF .std 8).len ≤ 8 ∧
    (let s := bounded 0 disabled (Safety.hosts 2 ++ Safety.stallTurns 0)
     Safety.Ready s ∧ s.block.initReads = true ∧ s.params.maxSpin = some 0 ∧ s.turns = Safety.hosts 2 ++ Safety.stallTurns 0 ++ []) :=
  ⟨⟨⟨rfl, rfl, rfl⟩, by decide +kernel, rfl⟩, ⟨⟨rfl, rfl, rfl⟩, by decide +kernel, rfl, rfl⟩, by decide, by decide,
   ⟨rfl, rfl, rfl⟩, rfl, rfl, rfl⟩
theorem witness_StatusCalls : Safety.Ready (ready block [.host]) ∧ (ready block [.host]).turns = .host :: [] := ⟨⟨rfl, rfl, rfl⟩, rfl⟩
theorem witness_Receive :
    (let s := ready block (Safety.enableTurns block ++ Safety.transferTurns .if2 ++ Safety.hosts 9)
     Safety.Ready s ∧ s.block.if2.busy = false ∧
     s.turns = Safety.enableTurns s.block ++ Safety.transferTurns .if2 ++ Safety.hosts 9 ++ []) ∧
    (let s := bounded 0 disabled (Safety.hosts 2 ++ Safety.stallTurns 0)
     Safety.Ready s ∧ s.block.initReads = true ∧ s.params.maxSpin = some 0 ∧ s.turns = Safety.hosts 2 ++ Safety.stallTurns 0 ++ []) :=
  ⟨⟨⟨rfl, rfl, rfl⟩, rfl, rfl⟩, ⟨rfl, rfl, rfl⟩, rfl, rfl, rfl⟩
theorem witness_ReceiveScan :
    (let b := withObj 30 { Obj.zero with newdat := true }
     let s := ready b (Safety.enableTurns b ++ Safety.hosts 2 ++ Safety.transferTurns .if2 ++ Safety.hosts 9)
     Safety.Ready s ∧ (s.block.obj 30).newdat = true ∧ (∀ m : Slot, m < 30 → (s.block.obj m).newdat = false) ∧ s.block.if2.busy = false ∧
     s.turns = Safety.enableTurns s.block ++ Safety.hosts 2 ++ Safety.transferTurns .if2 ++ Safety.hosts 9 ++ []) ∧
    (let b := withObj 31 { Obj.zero with newdat := true }
     let s := ready b (Safety.enableTurns b ++ Safety.hosts 2)
     Safety.Ready s ∧ (∀ m : Slot, m.val ≤ 30 → (s.block.obj m).newdat = false) ∧ s.turns = Safety.enableTurns s.block ++ Safety.hosts 2 ++ []) :=
  ⟨⟨⟨rfl, rfl, rfl⟩, by decide +kernel, by decide +kernel, rfl, rfl⟩, ⟨rfl, rfl, rfl⟩, by decide +kernel, rfl⟩

/-- The state a send leaves. -/
def sent : State := runCall (startSend (frameOf 0x7FF .std 8) 0) (ready block sendTurns)

/-- A later state with the sent object in slot 32. -/
def later : State :=
  ready (block.setObj 31 (sent.block.obj 31)) (Safety.enableTurns block ++ Safety.transferTurns .if2 ++ Safety.hosts 9)

theorem witness_SendReceive :
    Safety.Ready (ready block sendTurns) ∧ Safety.Ready later ∧ exec (.send (frameOf 0x7FF .std 8) 0) (ready block sendTurns) = .next sent ∧
    (∃ pending flagged, later.block.obj 31 = { sent.block.obj 31 with txrqst := pending, intpnd := flagged }) ∧
    later.block.if2.busy = false ∧
    later.turns = Safety.enableTurns later.block ++ Safety.transferTurns .if2 ++ Safety.hosts 9 ++ [] :=
  ⟨⟨rfl, rfl, rfl⟩, ⟨rfl, rfl, rfl⟩, rfl, ⟨true, false, by decide +kernel⟩, by decide +kernel, by decide +kernel⟩
theorem witness_Init :
    (let ts := Safety.hosts 4 ++ Safety.hosts 5 ++ [.host, .pe .initAck, .host] ++ Safety.templateTurns
     let s := { State.reset with params := params none, turns := ts }
     s.refused = none ∧ s.block.if1.busy = false ∧ s.clkEn = false ∧ s.rst = true ∧
     s.turns = Safety.hosts 4 ++ (if btCalc s.params.clkHz 100000 0 = 0#32 then [] else Safety.hosts 5) ++
       [.host, .pe .initAck, .host] ++ Safety.templateTurns ++ []) ∧
    (let s := { State.reset with params := params (some 0), turns := Safety.hosts 10 ++ Safety.stallTurns 0 }
     s.refused = none ∧ s.params.maxSpin = some 0 ∧
     s.turns = Safety.hosts 4 ++ (if btCalc s.params.clkHz 100000 0 = 0#32 then [] else Safety.hosts 5) ++ [.host] ++
       Safety.stallTurns 0 ++ []) := by
  refine ⟨⟨rfl, rfl, rfl, rfl, ?_⟩, rfl, rfl, ?_⟩ <;> decide +kernel
theorem witness_SetMode :
    Safety.Ready (ready disabled) ∧ (ready block (Safety.hosts 2)).turns = Safety.hosts 2 ++ [] ∧
    (ready disabled (Safety.hosts 5 ++ Safety.enableTurns disabled)).turns = Safety.hosts 5 ++ Safety.enableTurns disabled ++ [] ∧
    (ready disabled (Safety.hosts 4 ++ Safety.enableTurns disabled)).turns = Safety.hosts 4 ++ Safety.enableTurns disabled ++ [] ∧
    (∀ k, let s := bounded 0 disabled (Safety.hosts k ++ Safety.stallTurns 0)
     Safety.Ready s ∧ s.block.initReads = true ∧ s.params.maxSpin = some 0 ∧ s.turns = Safety.hosts k ++ Safety.stallTurns 0 ++ []) :=
  ⟨⟨rfl, rfl, rfl⟩, rfl, rfl, rfl, fun _ => ⟨⟨rfl, rfl, rfl⟩, rfl, rfl, by simp [bounded, ready]⟩⟩
theorem witness_Monitor :
    let s := ready { block with cntl := cntl true false false false } (Safety.hosts 4)
    Safety.Ready s ∧ s.turns = Safety.hosts 4 ++ [] ∧ s.block.cntl.test = true ∧ block.cntl.test = false ∧
    (ready block [.host]).turns = .host :: [] ∧
    (let ts := [.host, .pe (.error 0x8A05#16 true true true 5#3 true)] ++ Safety.hosts 3
     let u := ready { block with cntl := cntl true false false false } ts
     Safety.Ready u ∧ u.block.cntl.test = true ∧ u.block.initReads = false ∧ u.turns = ts ++ []) :=
  ⟨⟨rfl, rfl, rfl⟩, rfl, rfl, rfl, rfl, ⟨rfl, rfl, rfl⟩, rfl, rfl, rfl⟩
theorem witness_Reset :
    let s := ready block (Safety.hosts 2 ++ Safety.templateTurns)
    s.clkEn = true ∧ s.refused = none ∧ s.turns = Safety.hosts 2 ++ Safety.templateTurns ++ [] := ⟨rfl, rfl, by simp [ready]⟩
theorem witness_Teardown :
    Safety.Ready (ready block (Safety.hosts 6)) ∧ (ready block (Safety.hosts 6)).turns = Safety.hosts 6 ++ [] := ⟨⟨rfl, rfl, rfl⟩, rfl⟩
theorem witness_Registration :
    Safety.Ready (ready block (Safety.hosts 4)) ∧ (ready block (Safety.hosts 4)).turns = Safety.hosts 4 ++ [] := ⟨⟨rfl, rfl, rfl⟩, rfl⟩
theorem witness_DispatchStatus :
    let b := { block with stat := { boff := true, ewarn := true, epass := true, rxok := true, txok := true, lec := 7#3 }, statInt := true }
    (let s := interrupted b false (Safety.hosts 2 ++ Safety.noticeTurns 2 b.stat)
     Safety.Ready s ∧ s.mayDispatch = true ∧ s.block.statInt = true ∧ s.reg.cb = some 1 ∧ s.callbackPrograms = [] ∧
     s.turns = Safety.hosts 2 ++ Safety.noticeTurns 2 s.block.stat ++ []) ∧
    (let s : State := { interrupted b false (Safety.hosts 2 ++ Safety.noticeTurns 1 b.stat) with reg := Registration.empty }
     Safety.Ready s ∧ s.mayDispatch = true ∧ s.block.statInt = true ∧ s.reg.cb = none ∧
     s.turns = Safety.hosts 2 ++ Safety.noticeTurns 1 s.block.stat ++ []) :=
  ⟨⟨⟨rfl, rfl, rfl⟩, by decide +kernel, rfl, rfl, rfl, rfl⟩, ⟨rfl, rfl, rfl⟩, by decide +kernel, rfl, rfl, rfl⟩
theorem witness_DispatchObject :
    (let s := interrupted (withObj 0 { Obj.zero with newdat := true, intpnd := true }) true
      (.host :: Safety.transferTurns .if2 ++ Safety.hosts 2)
     Safety.Ready s ∧ s.mayDispatch = true ∧ s.block.statInt = false ∧ (s.block.obj 0).intpnd = true ∧
     (∀ m : Slot, m < 0 → (s.block.obj m).intpnd = false) ∧ s.block.if2.busy = false ∧ s.reg.cb = some 1 ∧ s.reg.rxEn = true ∧
     s.callbackPrograms = [] ∧ s.turns = .host :: Safety.transferTurns .if2 ++ Safety.hosts 2 ++ []) ∧
    (let s := interrupted (withObj 31 { Obj.zero with intpnd := true }) true (.host :: Safety.transferTurns .if2 ++ Safety.hosts 1)
     Safety.Ready s ∧ s.mayDispatch = true ∧ (s.block.obj 31).intpnd = true ∧ (∀ m : Slot, m < 31 → (s.block.obj m).intpnd = false) ∧
     s.reg.txEn = false ∧ s.turns = .host :: Safety.transferTurns .if2 ++ Safety.hosts 1 ++ []) :=
  ⟨⟨⟨rfl, rfl, rfl⟩, by decide +kernel, rfl, by decide +kernel, by decide +kernel, rfl, rfl, rfl, rfl, rfl⟩,
   ⟨rfl, rfl, rfl⟩, by decide +kernel, by decide +kernel, by decide +kernel, rfl, rfl⟩

/-- A dispatch in progress. -/
def dispatching : State := { ready block [.host] with irq := { HostCtx.idle with calls := [.proc [.rd .int .dispatch]] } }

theorem witness_InterruptEntry :
    (interrupted pendingBlock true []).mayDispatch = true ∧ (ready block).mayDispatch = false ∧ dispatching.irq.calls ≠ [] ∧
    ∃ t, step dispatching = .next t := ⟨by decide +kernel, by decide +kernel, by decide, _, rfl⟩

/-- An object the engine may transmit, receive into, or answer from. -/
def peBlock (o : Obj) : Block := block.setObj 31 o

theorem witness_PeSteps :
    ((ready block).refused = none ∧ (ready block).clkEn = true ∧ (ready block).rst = false) ∧
    ({ block with initPending := true } : Block).initPending = true ∧
    (let b := peBlock { Obj.zero with msgval := true, txrqst := true }
     (b.cntl.init || b.initPending) = false ∧ (b.obj 31).msgval = true ∧ (b.obj 31).txrqst = true) ∧
    (let b := peBlock { Obj.zero with msgval := true, id := frameIdent (frameOf 0x7FF .std 15), msk := 0x1FFC0000#29, umask := true }
     let f := frameOf 0x7FF .std 15
     (b.cntl.init || b.initPending) = false ∧ (b.obj 31).msgval = true ∧ (b.obj 31).dir = false ∧ f.len ≤ 15 ∧
     (b.obj 31).accepts f = true ∧ (∀ m : Slot, m < 31 → (b.obj m).accepts f = false) ∧ f.type = .data) ∧
    (let b := peBlock { Obj.zero with msgval := true, dir := true, rmten := true }
     (b.cntl.init || b.initPending) = false ∧ (b.obj 31).msgval = true ∧ (b.obj 31).dir = true ∧ (b.obj 31).rmten = true) ∧
    (disabled.cntl.init || disabled.initPending) ≠ false := by decide +kernel
theorem witness_PeNever :
    let s := ready block [.pe (.error 0x8A05#16 true true true 5#3 true)]
    s.turns = .pe (.error 0x8A05#16 true true true 5#3 true) :: [] ∧ ∃ t, step s = .next t ∧ t.block.cntl.init ≠ s.block.cntl.init ∧
      t.block.cntl.init = true := ⟨rfl, _, rfl, by decide +kernel, by decide +kernel⟩
/-- The invariant holds with a transfer in flight, and a step is taken from there. -/
theorem witness_InvKept : Safety.Inv (ready busyBlock [.xfer .if2]) ∧ ∃ t, step (ready busyBlock [.xfer .if2]) = .next t := by
  refine ⟨⟨?_, by decide, ?_, by decide⟩, _, rfl⟩
  · intro k
    cases k <;> exact ⟨fun _ => rfl, fun _ => by decide, by decide, by decide⟩
  · intro h
    exact absurd h (by decide)
theorem witness_FaultsKept :
    ∃ t, step { ready block [.host] with program := [.word 0x800C4D05#32] } = .next t ∧ t.faults ≠ [] := ⟨_, rfl, by decide +kernel⟩
theorem witness_BusyLock :
    ((ready busyBlock).block.iface .if1).busy = true ∧ (Turn.host ≠ .xfer .if1) ∧ (Turn.xfer .if2 ≠ .xfer .if1) ∧
    (∃ t, exec (.wrIf1Arb2 0x8000#16) (ready busyBlock) = .next t ∧ t.faults ≠ []) ∧
    (let op := HostOp.word 0x80200020#32
     let s : State := { issuing op with block := busyBlock }
     Safety.Issues s op [] ∧ Safety.NoProcedure op ∧ (s.block.iface .if1).busy = true ∧ ∃ t, step s = .next t ∧ t.faults ≠ []) ∧
    (let op := HostOp.envReset true
     let s : State := { issuing op with block := busyBlock }
     Safety.Issues s op [] ∧ Safety.NoProcedure op ∧ ∃ t, step s = .next t ∧ (t.block.iface .if1).busy = false) :=
  ⟨rfl, by decide, by decide, ⟨_, rfl, by decide +kernel⟩,
   ⟨⟨rfl, rfl, rfl, rfl, rfl⟩, nofun, rfl, _, rfl, by decide +kernel⟩, ⟨rfl, rfl, rfl, rfl, rfl⟩, nofun, _, rfl, by decide +kernel⟩
theorem witness_ValidityFlag :
    (((writeStart 0xF0#8 0x1D05#16).agentStep (.xfer .if1)).block.obj 5).msgval ≠ ((writeStart 0xF0#8 0x1D05#16).block.obj 5).msgval ∧
    (busOp (.wrIf1Arb2 0x8000#16)).isSome = true ∧ (∃ t, exec (.wrIf1Arb2 0x8000#16) (ready block) = .next t) ∧
    (let op := HostOp.call (.xferWr .if1 noParts)
     Safety.Issues (issuing op) op [] ∧ Safety.NoProcedure op ∧ ∃ t, step (issuing op) = .next t) :=
  ⟨by decide +kernel, rfl, ⟨_, rfl⟩, issuing_issues _, fun _ h => .inr (.inr ⟨_, _, .inl (HostOp.call.inj h).symm⟩), _, rfl⟩

end Sys2Proof.Tests
end

/-! SUPPORT. The scope's step (R9, R10, R11, R271): what each kind of operation resolves to, what a turn of each agent runs, and that
HOST_MAIN does not move while a dispatch runs. -/

namespace Sys2Proof.Machine

/-! ### What HOST_MAIN's operations resolve to -/

/-- An admitted word is what the decoder says of it (R93, R140). -/
theorem State.resolve_word {s : State} (ha : s.admitted = true) (t : BitVec 32) :
    s.resolve (.word t) = resolveDecoded (decode (.bus t)) := by
  rw [State.resolve, if_pos ha, decode]

/-- The operations of a host context are all but the completion of a transfer and the dispatch (R9). -/
theorem isHostInstr_eq_true_iff (i : Instr) :
    isHostInstr i = true ↔ (∀ k p, i ≠ .xferWr k p ∧ i ≠ .xferRd k p) ∧ i ≠ .dispatch := by
  cases i <;> simp [isHostInstr]

/-- A call of a host context's operation that is admitted, or needs no admission, is that operation (R140, R305). -/
theorem State.resolve_call {s : State} {i : Instr} (hi : isHostInstr i = true) (ha : busOp i = none ∨ s.admitted = true) :
    s.resolve (.call i) = .instr i := by
  have hw : (isBusCall i && !s.admitted) = false := by
    rcases ha with ha | ha <;> simp [isBusCall, ha]
  simp [State.resolve, hi, hw]

/-- A call of what is no operation of a host context passes. -/
theorem State.resolve_call_pass {s : State} {i : Instr} (hi : isHostInstr i = false) : s.resolve (.call i) = .passes := by
  simp [State.resolve, hi]

/-! ### What a turn of an agent runs -/

/-- The transfer a latched command word spells, completed while XFER_k is enabled (R160). -/
theorem exec_decodeCmd {s : State} {k : IfId} (h : s.xferEnabled k = true) (c : Byte) :
    exec (decodeCmd k c) s = .next (s.withBlock (s.block.transferDone k c)) := by
  unfold decodeCmd Block.transferDone
  split <;> exact if_pos h

/-- A turn of XFER_k is its step, if it is enabled (R160). -/
theorem takeTurn_xfer (s : State) (k : IfId) : takeTurn (.xfer k) s = .next (s.xferStep k) := by
  simp only [takeTurn, State.xferStep]
  split
  next hk => exact exec_decodeCmd hk _
  next => rfl

/-- A step that answers a next state has drawn an empty schedule, or has taken a turn (R9). -/
theorem step_next_cases {s t : State} (h : step s = .next t) :
    t = s.schedule ∨ ∃ x, takeTurn x s.schedule.turnTaken = .next t := by
  unfold step at h
  split at h
  · cases h
  · split at h
    · cases h; exact .inl rfl
    · exact .inr ⟨_, h⟩

@[simp] theorem State.schedule_main (s : State) : s.schedule.main = s.main := by unfold State.schedule; split <;> rfl
@[simp] theorem State.schedule_irq (s : State) : s.schedule.irq = s.irq := by unfold State.schedule; split <;> rfl
@[simp] theorem State.schedule_program (s : State) : s.schedule.program = s.program := by unfold State.schedule; split <;> rfl

/-! ### The start of a dispatch -/

/-- A dispatch may start while the line is asserted, the host's enable is set and none runs (R270, R271). -/
theorem State.mayDispatch_iff (s : State) : s.mayDispatch = true ↔
    s.block.cntl.ie = true ∧ (s.block.statInt = true ∨ ∃ n, (s.block.obj n).intpnd = true) ∧ s.hostIe = true ∧
      s.irq.calls = [] := by
  simp only [State.mayDispatch, Block.irqLine, Bool.and_eq_true, intWord_ne, List.isEmpty_iff, and_assoc]

/-- No dispatch starts while one runs (R271). -/
theorem State.mayDispatch_of_running {s : State} (h : s.irq.calls ≠ []) : s.mayDispatch = false := by
  rw [Bool.eq_false_iff, Ne, State.mayDispatch_iff]
  rintro ⟨-, -, -, hidle⟩
  exact h hidle

/-- A call begun in HOST_IRQ's context changes that context alone. -/
theorem State.beginCall_irq_frame (s : State) (todo : List Micro) : ({ s.beginCall .irq todo with irq := s.irq } : State) = s := rfl

/-- Once the interrupt is taken, HOST_IRQ's context is the running one (R273). -/
theorem State.takeInterrupt_running {s : State} (h : s.mayDispatch = true) : (s.takeInterrupt dispatchPlan).running = .irq := by
  have hcalls : (s.beginCall .irq dispatchPlan).irq.calls = .proc dispatchPlan :: s.irq.calls := rfl
  rw [State.takeInterrupt, if_pos h, running_irq, hcalls]
  exact List.cons_ne_nil _ _

/-- The dispatch's entry changes HOST_IRQ's context alone (R273). -/
theorem State.takeInterrupt_frame {s : State} (h : s.mayDispatch = true) :
    ({ s.takeInterrupt dispatchPlan with irq := s.irq } : State) = s := by
  rw [State.takeInterrupt, if_pos h]
  exact s.beginCall_irq_frame dispatchPlan

/-! ### HOST_MAIN while a dispatch runs -/

/-- A context inside a call issues nothing of the program: it goes on, or waits for admission. -/
theorem State.hostMove_inCall {s : State} (h : (s.ctx s.running).calls ≠ []) : s.hostMove = .goOn ∨ s.hostMove = .stuck := by
  unfold State.hostMove
  split
  · contradiction
  · split <;> simp
  · split <;> simp
  · exact .inl rfl

/-- A host turn during a dispatch is HOST_IRQ's, and leaves HOST_MAIN where it is (R10). -/
theorem hostStep_keepsMain {s : State} (h : s.irq.calls ≠ []) : KeepsMain s s.hostStep := by
  have hrun : s.running = .irq := running_irq.2 h
  unfold State.hostStep
  simp only [hrun]
  split
  · exact ⟨rfl, rfl⟩
  · exact callbackStep_keepsMain s _ _
  · exact ⟨by simp [State.endCallback], by simp⟩
  · exact micro_keepsMain s _ _ _ hrun

/-- No turn of any agent during a dispatch moves HOST_MAIN (R10). -/
theorem takeTurn_keepsMain {s t : State} {x : Turn} (h : s.irq.calls ≠ []) (ht : takeTurn x s = .next t) : KeepsMain s t := by
  cases x with
  | host =>
    have hctx : (s.ctx s.running).calls ≠ [] := by rw [running_irq.2 h]; exact h
    rcases State.hostMove_inCall hctx with hm | hm <;> simp only [takeTurn, hm] at ht <;> cases ht
    exact hostStep_keepsMain h
  | irq =>
    simp only [takeTurn, State.mayDispatch_of_running h] at ht
    cases ht
    exact ⟨rfl, rfl⟩
  | xfer k =>
    rw [takeTurn_xfer] at ht
    cases ht
    exact ⟨s.xferStep_main k, s.xferStep_program k⟩
  | pe e =>
    cases ht
    exact ⟨s.peStep_main e, s.peStep_program e⟩

/-- While a dispatch runs no step moves HOST_MAIN (R10, R274). -/
theorem step_keepsMain {s t : State} (h : s.irq.calls ≠ []) (hs : step s = .next t) : KeepsMain s t := by
  rcases step_next_cases hs with rfl | ⟨x, hx⟩
  · exact ⟨s.schedule_main, s.schedule_program⟩
  · obtain ⟨hm, hp⟩ := takeTurn_keepsMain (by simpa [State.turnTaken] using h) hx
    exact ⟨by simpa [State.turnTaken] using hm, by simpa [State.turnTaken] using hp⟩

/-! ### The obligations -/

/-- Settles O53, from the iff for the start of a dispatch, the frame of its entry, and the step lemma for HOST_MAIN. -/
theorem interruptEntry : Obligations.InterruptEntry := by
  unfold Obligations.InterruptEntry
  refine ⟨State.mayDispatch_iff, fun s h => ?_, fun s h => ⟨State.takeInterrupt_running h, State.takeInterrupt_frame h⟩,
    fun s t h hs => step_keepsMain h hs⟩
  exact if_neg (Bool.eq_false_iff.1 h)

/-- Settles O7: an issued operation's step, by what the operation resolves to. -/
theorem stepRunsDecoded : Obligations.StepRunsDecoded := by
  unfold Obligations.StepRunsDecoded
  have hadm : ∀ {s : State} ts, s.clkEn = true → s.rst = false → (s.withTurns ts).admitted = true :=
    fun _ hc hr => State.admitted_iff.2 ⟨hc, hr⟩
  refine ⟨?word, ?call, ?rejected, ?clock, ?release, ?assert, ?pass⟩
  case word =>
    intro s ts t i hc hr h hd _
    rw [issues_step h, State.resolve_word (hadm ts hc hr), hd, resolveDecoded]
  case call =>
    intro s ts i ha hx hd h
    rw [issues_step h, State.resolve_call ((isHostInstr_eq_true_iff i).2 ⟨hx, hd⟩) (ha.imp_right fun ⟨hc, hr⟩ => hadm ts hc hr)]
  case rejected =>
    intro s ts t e hc hr h hd
    rw [issues_step h, State.resolve_word (hadm ts hc hr), hd]
    rfl
  case clock =>
    intro s ts b h
    rw [issues_step h]
    rfl
  case release =>
    intro s ts h
    rw [issues_step h]
    rfl
  case assert =>
    intro s ts h
    have hstep : step s = .next ((Safety.issued s ts).envReset true) := issues_step h
    exact ⟨_, _, hstep, rfl, rfl, rfl, rfl, rfl⟩
  case pass =>
    intro s ts i hi h
    have hn : isHostInstr i = false := by
      rcases hi with ⟨k, p, rfl | rfl⟩ | rfl <;> rfl
    rw [issues_step h, State.resolve_call_pass hn]

/-- Settles O8, from the step that takes the next turn, by whether the turn's agent is enabled. -/
theorem stepRunsAgents : Obligations.StepRunsAgents := by
  unfold Obligations.StepRunsAgents
  refine ⟨fun s k ts hr ht => ?xfer, fun s ts hr ht => ?irq, fun s m hr => ?refused⟩
  case xfer | irq =>
    rw [turn_step hr ht]
    exact ⟨fun h => if_pos h, fun h => if_neg (Bool.eq_false_iff.1 h)⟩
  case refused =>
    rw [step, hr]

end Sys2Proof.Machine

/-! SUPPORT. The state's own rules: what an admitted read gives (R140), the bitmaps (R41), the interrupt identifier (R40), and that the
recorded faults and the parameters last (R44, R262). -/

namespace Sys2Proof.Machine

/-! ### What an admitted read gives -/

/-- An admitted read returns its register's word, and changes of the block what the register's read changes (R78, R140). -/
theorem exec_readOp_gives {s : State} (ha : s.admitted = true) (r : Reg) :
    ∃ t, exec (readOp r) s = .next t ∧ Safety.ReadGave s (s.block.afterRead r) (s.readWord r) t :=
  ⟨s.hostRead r, (exec_readOp r s).trans (busRead_admitted ha r), s.fresh + 1, s.hostRead_eq r⟩

/-- Only STAT's read changes the block (R78, R142). -/
theorem Block.afterRead_of_ne_stat (b : Block) {r : Reg} (h : r ≠ .stat) : b.afterRead r = b := if_neg h

/-- An admitted read of a register other than STAT, all of whose bits are defined, returns the defined word and changes no block state. -/
theorem exec_readOp_closed {s : State} (ha : s.admitted = true) {r : Reg} (hr : r ≠ .stat) (ho : s.block.openBits r = 0#16) :
    ∃ t, exec (readOp r) s = .next t ∧ Safety.ReadGave s s.block (s.block.known r) t := by
  have h := exec_readOp_gives ha r
  rwa [s.block.afterRead_of_ne_stat hr, s.readWord_closed r ho] at h

/-! ### The interrupt identifier (R40) -/

/-- A pending status change is the identifier 0x8000, whatever the objects show. -/
theorem Block.intWord_of_statInt {b : Block} (h : b.statInt = true) : b.intWord = 0x8000#16 := if_pos h

/-- Without a status change the identifier is the number of the least slot with INTPND. -/
theorem Block.intWord_of_least {b : Block} {n : Slot} (hs : b.statInt = false) (hn : (b.obj n).intpnd = true)
    (hleast : ∀ m : Slot, m < n → (b.obj m).intpnd = false) : b.intWord.toNat = slotNumber n := by
  have hfind : b.leastPending 0 32 = some n :=
    b.leastPending_some 32 0 n hn (Nat.zero_le _) (by omega) fun m _ hm => hleast m hm
  simp only [Block.intWord, hs, hfind, slotNumber, Bool.false_eq_true, if_false, BitVec.toNat_ofNat]
  omega

/-- With neither a status change nor a pending object the identifier is 0. -/
theorem Block.intWord_of_none {b : Block} (hs : b.statInt = false) (h : ∀ m : Slot, (b.obj m).intpnd = false) :
    b.intWord = 0#16 := by
  simp [Block.intWord, hs, b.leastPending_none h]

/-! ### The faults mark and the parameters -/

/-- A move records at most one more fault, at the end (R44, R262). -/
theorem State.Moves.faults_prefix {s s' : State} {t : Turn} (h : s.Moves t s') : s.faults <+: s'.faults := by
  cases h with
  | fault _ _ f _ _ _ _ _ hf => exact hf ▸ s.recordFault_prefix f
  | _ => exact ‹s'.faults = s.faults› ▸ List.prefix_rfl

/-- A move keeps the parameters (R8). -/
theorem State.Moves.params_eq {s s' : State} {t : Turn} (h : s.Moves t s') : s'.params = s.params := by
  cases h <;> assumption

/-! ### The obligations -/

/-- Settles O13, from the read of a register without open bits and the place of a slot's bit in either half of a bitmap. -/
theorem rdBitmaps : Obligations.RdBitmaps := by
  unfold Obligations.RdBitmaps
  intro s hclk hrst
  have hadm : s.admitted = true := State.admitted_iff.2 ⟨hclk, hrst⟩
  have hread (r : Reg) := exec_readOp_closed hadm (r := r)
  exact ⟨_, _, _, _, _, _, _, _,
    hread (.msgv .lo) nofun rfl, hread (.msgv .hi) nofun rfl, hread (.txreq .lo) nofun rfl, hread (.txreq .hi) nofun rfl,
    hread (.nd .lo) nofun rfl, hread (.nd .hi) nofun rfl, hread (.ir .lo) nofun rfl, hread (.ir .hi) nofun rfl,
    fun n hn => ⟨s.block.bitmap_lo _ n hn, s.block.bitmap_lo _ n hn, s.block.bitmap_lo _ n hn, s.block.bitmap_lo _ n hn⟩,
    fun n hn => ⟨s.block.bitmap_hi _ n hn, s.block.bitmap_hi _ n hn, s.block.bitmap_hi _ n hn, s.block.bitmap_hi _ n hn⟩⟩

/-- Settles O14, from the read of a register without open bits and the three cases of the identifier. -/
theorem rdInt : Obligations.RdInt := by
  unfold Obligations.RdInt
  intro s hclk hrst
  obtain ⟨t, ht, hgave⟩ := exec_readOp_closed (State.admitted_iff.2 ⟨hclk, hrst⟩) (r := .int) nofun rfl
  exact ⟨s.block.intWord, t, ht, hgave, Block.intWord_of_statInt, fun _ => Block.intWord_of_least, Block.intWord_of_none⟩

/-- Settles O58: every move keeps both, so every step does. -/
theorem faultsKept : Obligations.FaultsKept := by
  unfold Obligations.FaultsKept
  intro s t h
  refine step_keeps (P := fun u => s.faults <+: u.faults ∧ u.params = s.params) ?_ ⟨List.prefix_rfl, rfl⟩ h
  rintro u u' ⟨hf, hp⟩ ⟨x, hx⟩
  exact ⟨hf.trans hx.faults_prefix, hx.params_eq.trans hp⟩

end Sys2Proof.Machine

/-! SUPPORT. Host accesses and the frame of a read (20_memory.md): the value a 16- or 32-bit read returns and what it leaves, that a
second read shows the same defined bits, and what an access at an offset from BASE resolves to. -/

namespace Sys2Proof.Machine

/-! ### What a read returns and leaves (R73, R78) -/

/-- An admitted register read answers its effect (R140). -/
theorem exec_readOp_admitted {s : State} (ha : s.admitted = true) (r : Reg) : exec (readOp r) s = .next (s.hostRead r) :=
  (exec_readOp r s).trans (busRead_admitted ha r)

/-- A register read that answers was admitted, and its answer is the read's effect (R140). -/
theorem exec_readOp_next {r : Reg} {s t : State} (h : exec (readOp r) s = .next t) : s.admitted = true ∧ t = s.hostRead r := by
  rw [exec_readOp, busRead] at h
  split at h
  next ha => cases h; exact ⟨ha, rfl⟩
  next => cases h

/-- A 16-bit read returns the register's word. -/
theorem State.hostRead_rdata (s : State) (r : Reg) :
    ((s.hostRead r).ctx s.running).rdata.extractLsb' 0 16 = s.readWord r := by
  rw [s.hostRead_eq, State.ctx_setCtx_same, BitVec.extractLsb'_setWidth_of_le (by decide), BitVec.extractLsb'_eq_self]

/-- A 32-bit read returns the same word in bits 15:0 (R73). -/
theorem State.hostReadWide_rdata (s : State) (r : Reg) :
    ((s.hostReadWide r).ctx s.running).rdata.extractLsb' 0 16 = s.readWord r := by
  rw [s.hostReadWide_eq, State.ctx_setCtx_same, BitVec.extractLsb'_append_eq_right]

/-- A read is admitted where one before it was. -/
theorem State.admitted_hostRead (s : State) (r : Reg) : (s.hostRead r).admitted = s.admitted := by
  simp [State.admitted]

/-- No read begins or ends a call, so the running context stays the same. -/
theorem State.running_hostRead (s : State) (r : Reg) : (s.hostRead r).running = s.running := by
  have hcalls : (s.hostRead r).irq.calls = s.irq.calls := by
    rw [s.hostRead_eq]
    cases s.running <;> rfl
  rw [State.running, hcalls, State.running]

/-- But for the block and the count of free values, a read changes the running context's value alone. -/
theorem State.hostRead_frame (s : State) (r : Reg) :
    ({ s.hostRead r with block := s.block, fresh := s.fresh } : State) =
      s.setCtx s.running { s.ctx s.running with rdata := ((s.hostRead r).ctx s.running).rdata } := by
  rw [s.hostRead_eq, State.ctx_setCtx_same]
  cases s.running <;> rfl

/-! ### A second read of the same register (R79) -/

/-- A read leaves which bits of its register are open: STAT's latch decides none of them. -/
theorem Block.openBits_afterRead (b : Block) (r : Reg) : (b.afterRead r).openBits r = b.openBits r := by
  by_cases hr : r = .stat
  · subst hr; rfl
  · rw [b.afterRead_of_ne_stat hr]

/-- A read leaves the defined bits of its register: STAT's own word does not show the latch its read clears. -/
theorem Block.known_afterRead (b : Block) (r : Reg) : (b.afterRead r).known r = b.known r := by
  by_cases hr : r = .stat
  · subst hr; rfl
  · rw [b.afterRead_of_ne_stat hr]

/-- With the open bits masked off, a read's word is the defined word, whatever was drawn. -/
theorem Block.readWord_masked (b : Block) (free : Word) (r : Reg) :
    b.readWord free r &&& ~~~ b.openBits r = b.known r &&& ~~~ b.openBits r := by
  apply word_ext
  intro i hi
  rw [BitVec.getLsbD_and, BitVec.getLsbD_and, b.getLsbD_readWord free r i hi, BitVec.getLsbD_not]
  cases (b.openBits r).getLsbD i <;> simp

/-- Two reads of a register in a row agree in every bit that is not open. -/
theorem State.readWord_hostRead_masked (s : State) (r : Reg) :
    (s.hostRead r).readWord r &&& ~~~ s.block.openBits r = s.readWord r &&& ~~~ s.block.openBits r := by
  have hsecond := (s.block.afterRead r).readWord_masked (Config.freeWord (s.hostRead r).fresh) r
  rw [Block.openBits_afterRead, Block.known_afterRead] at hsecond
  rw [State.readWord, State.hostRead_block, hsecond, State.readWord, Block.readWord_masked]

/-! ### What an access at an offset from BASE resolves to (R73, R75, R76, R265) -/

/-- An admitted access is resolved against BASE (R71, R140). -/
theorem State.resolve_access {s : State} (ha : s.admitted = true) (width : AccessWidth) (write : Bool) (addr : Nat) (data : BitVec 32) :
    s.resolve (.access width write addr data) = resolveAccess s.params.base width write addr data := if_pos ha

/-- At an offset that names no register every width and direction is a bad offset (R75). -/
theorem resolveAccess_unnamed {off : Nat} (h : regAtOffset off = none) (base : Nat) (width : AccessWidth) (write : Bool)
    (data : BitVec 32) : resolveAccess base width write (base + off) data = .refused (.badOffset off) := by
  cases width <;> simp [resolveAccess, decodeAccess, decodeAt, h, resolveDecoded, refusalOf]

/-- An 8-bit access to a register is a bad width, in either direction (R73, R265). -/
theorem resolveAccess_w8 (base : Nat) (write : Bool) (r : Reg) (data : BitVec 32) :
    resolveAccess base .w8 write (base + regOffset r) data = .refused (.badWidth (regOffset r)) := by
  simp [resolveAccess, decodeAccess, regAtOffset_regOffset, resolveDecoded, refusalOf]

/-- A 16- or 32-bit write decodes as a write of bits 15:0 (R73). -/
theorem resolveAccess_write {width : AccessWidth} (hw : width ≠ .w8) (base : Nat) (r : Reg) (data : BitVec 32) :
    resolveAccess base width true (base + regOffset r) data =
      resolveDecoded (decodeAt true (regOffset r) (data.extractLsb' 0 16)) := by
  cases width with
  | w8 => contradiction
  | w16 | w32 => simp [resolveAccess, decodeAccess]

/-- A write of a register that has a write row is that row. -/
theorem decodeAt_write {r : Reg} {v : Word} {i : Instr} (h : writeOp r v = some i) : decodeAt true (regOffset r) v = .instr i := by
  simp [decodeAt, regAtOffset_regOffset, h]

/-- A write of a read-only register is rejected (R76). -/
theorem decodeAt_write_readOnly {r : Reg} (v : Word) (h : Safety.readOnly r = true) :
    decodeAt true (regOffset r) v = .rejected (.roWrite r) := by
  simp [decodeAt, regAtOffset_regOffset, (writeOp_eq_none r v).2 h]

/-- A 16-bit read of a register is its read row. -/
theorem resolveAccess_read_w16 (base : Nat) (r : Reg) (data : BitVec 32) :
    resolveAccess base .w16 false (base + regOffset r) data = .instr (readOp r) := by
  simp [resolveAccess, decodeAccess, decodeAt, regAtOffset_regOffset, resolveDecoded]

/-- A 32-bit read of a register is its wide read (R73). -/
theorem resolveAccess_read_w32 (base : Nat) (r : Reg) (data : BitVec 32) :
    resolveAccess base .w32 false (base + regOffset r) data = .wideRead r := by
  simp [resolveAccess, regAtOffset_regOffset]

/-! ### The obligations -/

/-- Settles O16: a read that answers is hostRead, whose frame is known, and a second one shows the same defined bits. -/
theorem readFrame : Obligations.ReadFrame := by
  unfold Obligations.ReadFrame
  intro r s t h
  obtain ⟨hadm, rfl⟩ := exec_readOp_next h
  have hsecond := exec_readOp_admitted ((s.admitted_hostRead r).trans hadm) r
  refine ⟨s.hostRead_block r, s.hostRead_frame r, _, hsecond, ?_⟩
  have hrdata := (s.hostRead r).hostRead_rdata r
  rw [s.running_hostRead r] at hrdata
  rw [hrdata, s.hostRead_rdata r, s.readWord_hostRead_masked r]

/-- Settles O6: the step of an issued access, by what the access resolves to. -/
theorem accessWidths : Obligations.AccessWidths := by
  unfold Obligations.AccessWidths
  intro s ts width write off data hclk hrst h
  have hadm : (s.withTurns ts).admitted = true := State.admitted_iff.2 ⟨hclk, hrst⟩
  have hstep := issues_step h
  rw [State.resolve_access hadm, State.withTurns_params] at hstep
  refine ⟨fun hnone => ?unnamed, ?named⟩
  case unnamed =>
    rw [hstep, resolveAccess_unnamed (regAtOffset_none hnone)]
    rfl
  case named =>
    rintro r rfl
    refine ⟨?width8, ?readOnly, ?writable, ?read16, ?read32⟩
    case width8 =>
      rintro rfl
      rw [hstep, resolveAccess_w8]
      rfl
    case readOnly =>
      rintro hw rfl hro
      rw [hstep, resolveAccess_write hw, decodeAt_write_readOnly _ hro]
      rfl
    case writable =>
      rintro hw rfl hrw
      obtain ⟨i, hi⟩ : ∃ i, writeOp r (data.extractLsb' 0 16) = some i := by
        rw [← Option.ne_none_iff_exists', ne_eq, writeOp_eq_none, hrw]
        decide
      refine ⟨i, hi, ?_⟩
      rw [hstep, resolveAccess_write hw, decodeAt_write hi, resolveDecoded]
    case read16 =>
      rintro rfl rfl
      rw [hstep, resolveAccess_read_w16]
    case read32 =>
      rintro rfl rfl
      rw [resolveAccess_read_w32] at hstep
      refine ⟨_, _, exec_readOp_admitted (s := Safety.issued s ts) hadm r, hstep, ?_, ?_⟩
      · rw [State.hostReadWide_block, State.hostRead_block]
      · exact ((Safety.issued s ts).hostReadWide_rdata r).trans ((Safety.issued s ts).hostRead_rdata r).symm

end Sys2Proof.Machine

/-! SUPPORT. The encoder and the decoder as inverses (R92 to R94): the words of the transfers, which operations have an encoding, which
BUS words are admitted, and that a word is made of its fields. -/

namespace Sys2Proof

open Sys2Proof.Machine

/-! ### Command words (R94) -/

/-- The transfer of a direction: a write transfer when write is true. -/
def transferOp (write : Bool) (k : IfId) (p : Parts) : Instr := if write then .xferWr k p else .xferRd k p

/-- The command word of a transfer: the direction in bit 7, the part selects below it. -/
def commandWord (write : Bool) (p : Parts) : Byte := BitVec.ofNat 8 ((if write then 128 else 0) + partsValue p)

theorem encode_transferOp (write : Bool) (k : IfId) (p : Parts) :
    encode (transferOp write k p) = some (.cmd k (commandWord write p)) := by
  cases write <;> simp [transferOp, commandWord, encode, busOp]

theorem decodeCmd_eq_transferOp (k : IfId) (c : Byte) : decodeCmd k c = transferOp (c.getLsbD 7) k (partsOf c) := rfl

/-- A command word is its direction bit and its part selects. -/
theorem commandWord_ext {c d : Byte} (hdir : c.getLsbD 7 = d.getLsbD 7) (hparts : partsOf c = partsOf d) : c = d := by
  simp only [partsOf, Parts.mk.injEq] at hparts
  obtain ⟨h6, h5, h4, h3, h2, h1, h0⟩ := hparts
  refine BitVec.eq_of_getLsbD_eq fun i hi => ?_
  interval_cases i <;> assumption

theorem decodeCmd_commandWord (write : Bool) (k : IfId) (p : Parts) : decodeCmd k (commandWord write p) = transferOp write k p := by
  obtain ⟨hparts, hdir⟩ := partsOf_partsValue p write
  rw [decodeCmd_eq_transferOp, commandWord, hparts, hdir]

theorem commandWord_partsOf (c : Byte) : commandWord (c.getLsbD 7) (partsOf c) = c := by
  obtain ⟨hparts, hdir⟩ := partsOf_partsValue (partsOf c) (c.getLsbD 7)
  exact commandWord_ext hdir hparts

/-! ### Decoding an encoding -/

/-- Only bus transactions and transfers have an encoding (R90). -/
theorem encode_cases {i : Instr} {c : Code} (h : encode i = some c) :
    (∃ op, busOp i = some op ∧ c = .bus (busWord op)) ∨
    ∃ write k p, i = transferOp write k p ∧ c = .cmd k (commandWord write p) := by
  unfold encode at h
  split at h
  case h_1 op hop => exact .inl ⟨op, hop, (Option.some.inj h).symm⟩
  case h_2 =>
    split at h
    case h_1 k p _ =>
      cases h
      exact .inr ⟨true, k, p, rfl, rfl⟩
    case h_2 k p _ =>
      have henc := encode_transferOp false k p
      cases h
      exact .inr ⟨false, k, p, rfl, Option.some.inj henc⟩
    case h_3 => cases h

/-- The word of a bus transaction decodes to its row (R92, R93). -/
theorem decodeBus_busWord {i : Instr} {op : BusOp} (h : busOp i = some op) : decodeBus (busWord op) = .instr i := by
  cases op with
  | rd r => rw [decodeBus_rd, busOp_rd h]
  | wr r v => exact decodeBus_wr r v i (busOp_wr h)

/-- The decoder undoes the encoder. -/
theorem decode_of_encode {i : Instr} {c : Code} (h : encode i = some c) : decode c = .instr i := by
  rcases encode_cases h with ⟨op, hop, rfl⟩ | ⟨write, k, p, rfl, rfl⟩
  · exact decodeBus_busWord hop
  · exact congrArg Decoded.instr (decodeCmd_commandWord write k p)

/-! ### BUS words (R92, R93) -/

/-- A word whose Z is not 0 is rejected whole. -/
theorem decodeBus_of_z_ne {t : BitVec 32} (hz : t.extractLsb' 28 3 ≠ 0#3) : decodeBus t = .rejected (.badOffset t.toNat) :=
  if_pos hz

/-- A word with Z = 0 is the transaction its direction bit, offset and data spell. -/
theorem decodeBus_of_z_eq {t : BitVec 32} (hz : t.extractLsb' 28 3 = 0#3) :
    decodeBus t = decodeAt (t.getLsbD 31) (t.extractLsb' 16 12).toNat (t.extractLsb' 0 16) :=
  if_neg (not_not.2 hz)

/-- A register that is not read-only has a write row (R76). -/
theorem exists_writeOp {r : Reg} (h : Safety.readOnly r = false) (v : Word) : ∃ i, writeOp r v = some i := by
  rw [← Option.ne_none_iff_exists', ne_eq, writeOp_eq_none, h]
  exact Bool.false_ne_true

/-- A transaction that decodes names a register, and is its read or its write. -/
theorem decodeAt_cases {write : Bool} {off : Nat} {v : Word} {i : Instr} (h : decodeAt write off v = .instr i) :
    ∃ r, regOffset r = off ∧ ((write = false ∧ i = readOp r) ∨ (write = true ∧ writeOp r v = some i)) := by
  by_cases hnone : ∀ r, regOffset r ≠ off
  · simp [decodeAt, regAtOffset_none hnone] at h
  obtain ⟨r, rfl⟩ : ∃ r, regOffset r = off := by simpa using hnone
  refine ⟨r, rfl, ?_⟩
  cases write with
  | false =>
    simp only [decodeAt, regAtOffset_regOffset, Bool.false_eq_true, if_false, Decoded.instr.injEq] at h
    exact .inl ⟨rfl, h.symm⟩
  | true =>
    cases hro : Safety.readOnly r with
    | true => simp [decodeAt_write_readOnly v hro] at h
    | false =>
      obtain ⟨j, hj⟩ := exists_writeOp hro v
      rw [decodeAt_write hj, Decoded.instr.injEq] at h
      exact .inr ⟨rfl, h ▸ hj⟩

/-- A word is the sum of its fields W, Z, OFF and DATA (R92). -/
theorem toNat_eq_fields (t : BitVec 32) :
    t.toNat = (t.getLsbD 31).toNat * 2 ^ 31 + (t.extractLsb' 28 3).toNat * 2 ^ 28 + (t.extractLsb' 16 12).toNat * 2 ^ 16 +
      (t.extractLsb' 0 16).toNat := by
  have ht := t.isLt
  have hw : (t.getLsbD 31).toNat = t.toNat / 2 ^ 31 % 2 := by
    rw [BitVec.getLsbD, Nat.toNat_testBit]
  rw [hw]
  simp only [BitVec.extractLsb'_toNat, Nat.shiftRight_eq_div_pow]
  omega

/-- The mask 0xFFFF0000 keeps W, Z and OFF, and makes DATA 0. -/
theorem toNat_and_fields (t : BitVec 32) :
    (t &&& 0xFFFF0000#32).toNat = (t.getLsbD 31).toNat * 2 ^ 31 + (t.extractLsb' 28 3).toNat * 2 ^ 28 +
      (t.extractLsb' 16 12).toNat * 2 ^ 16 := by
  have hmask : 0xFFFF0000#32 = BitVec.allOnes 32 <<< 16 := by decide
  have hshift : t &&& 0xFFFF0000#32 = t >>> 16 <<< 16 := by
    rw [BitVec.shiftLeft_ushiftRight, hmask]
  have hfields := toNat_eq_fields t
  have hdata := (t.extractLsb' 0 16).isLt
  have ht := t.isLt
  rw [hshift, BitVec.toNat_shiftLeft, BitVec.toNat_ushiftRight, Nat.shiftRight_eq_div_pow, Nat.shiftLeft_eq]
  omega

/-- A write's word is made of its register's offset and its data. -/
theorem busWord_wr_fields {t : BitVec 32} {r : Reg} (hw : t.getLsbD 31 = true) (hz : t.extractLsb' 28 3 = 0#3)
    (hoff : regOffset r = (t.extractLsb' 16 12).toNat) : busWord (.wr r (t.extractLsb' 0 16)) = t := by
  have hfields := toNat_eq_fields t
  have ht := t.isLt
  rw [hw, hz] at hfields
  refine BitVec.eq_of_toNat_eq ?_
  rw [busWord, BitVec.toNat_ofNat, hoff]
  simp only [Bool.toNat_true, BitVec.toNat_zero] at hfields
  omega

/-- A read's word is made of its register's offset: the word with its DATA made 0. -/
theorem busWord_rd_fields {t : BitVec 32} {r : Reg} (hw : t.getLsbD 31 = false) (hz : t.extractLsb' 28 3 = 0#3)
    (hoff : regOffset r = (t.extractLsb' 16 12).toNat) : busWord (.rd r) = t &&& 0xFFFF0000#32 := by
  refine BitVec.eq_of_toNat_eq ?_
  have hlt := regOffset_lt r
  rw [toNat_and_fields, busWord, BitVec.toNat_ofNat, hw, hz, ← hoff]
  simp only [Bool.toNat_false, BitVec.toNat_zero]
  omega

/-- The encoder undoes the decoder on BUS words, but for a read's DATA. -/
theorem encode_of_decodeBus {t : BitVec 32} {i : Instr} (h : decodeBus t = .instr i) :
    encode i = some (.bus (if t.getLsbD 31 then t else t &&& 0xFFFF0000#32)) := by
  by_cases hz : t.extractLsb' 28 3 = 0#3
  case neg => simp [decodeBus_of_z_ne hz] at h
  rw [decodeBus_of_z_eq hz] at h
  obtain ⟨r, hoff, ⟨hw, rfl⟩ | ⟨hw, hi⟩⟩ := decodeAt_cases h
  · rw [encode_busOp (busOp_readOp r), busWord_rd_fields hw hz hoff, hw]
    rfl
  · rw [encode_busOp (busOp_writeOp hi), busWord_wr_fields hw hz hoff, hw]
    rfl

/-! ### A transfer without parts (R169) -/

/-- The choice of no part. -/
def Parts.nothing : Parts where
  mask := false
  arb := false
  ctrl := false
  clrIntPnd := false
  txRqstNewDat := false
  dataA := false
  dataB := false

/-- Storing an object back as it is changes nothing. -/
theorem Machine.Block.setObj_obj_self (b : Block) (n : Slot) : b.setObj n (b.obj n) = b := by
  simp [Block.setObj, Block.obj]

/-- A write transfer of no part stores the object as it is. -/
theorem Machine.Block.writeTransfer_nothing (b : Block) (k : IfId) :
    b.writeTransfer k .nothing = b.setIface k { b.iface k with busy := false } :=
  congrArg (fun c : Block => c.setIface k { b.iface k with busy := false }) (b.setObj_obj_self (b.iface k).slot)

/-- A read transfer of no part loads nothing and clears nothing. -/
theorem Machine.Block.readTransfer_nothing (b : Block) (k : IfId) :
    b.readTransfer k .nothing = b.setIface k { b.iface k with busy := false } :=
  congrArg (fun c : Block => c.setIface k { b.iface k with busy := false }) (b.setObj_obj_self (b.iface k).slot)

/-! ### The obligations -/

/-- Settles O3: the decoder undoes the encoder, and the rows of the bus and of the transfers have a word. -/
theorem roundTrip : Obligations.RoundTrip := by
  unfold Obligations.RoundTrip
  intro i _
  refine ⟨fun c => decode_of_encode, fun hbus => ?_, fun k p hi => ?_⟩
  · obtain ⟨op, hop⟩ := Option.isSome_iff_exists.1 hbus
    rw [encode_busOp hop, Option.isSome_some]
  · rcases hi with rfl | rfl <;> rfl

/-- Settles O2: the decoder's branches in R93's order, and the facts of the offset table. -/
theorem busDecoding : Obligations.BusDecoding := by
  unfold Obligations.BusDecoding
  refine ⟨fun t => ⟨decodeBus_of_z_ne, fun hz hnone => ?unnamed, fun r hz hoff => ?named⟩,
    mem_allRegs, by decide, by decide, fun r q => regOffset_inj⟩
  case unnamed =>
    rw [decode, decodeBus_of_z_eq hz, decodeAt, regAtOffset_none hnone]
  case named =>
    have hat : decode (.bus t) = decodeAt (t.getLsbD 31) (regOffset r) (t.extractLsb' 0 16) := by
      rw [decode, decodeBus_of_z_eq hz, hoff]
    refine ⟨fun hw => ?read, fun hw hro => ?refused, fun hw hrw => ?writable⟩
    case read =>
      rw [hat, hw, decodeAt, regAtOffset_regOffset]
      rfl
    case refused =>
      rw [hat, hw, decodeAt_write_readOnly _ hro]
    case writable =>
      obtain ⟨i, hi⟩ := exists_writeOp hrw (t.extractLsb' 0 16)
      refine ⟨i, hi, ?_⟩
      rw [hat, hw, decodeAt_write hi]

/-- Settles O4: the encoder undoes the decoder on words of both forms. -/
theorem encodeDecode : Obligations.EncodeDecode := by
  unfold Obligations.EncodeDecode
  refine ⟨fun t i => encode_of_decodeBus, fun k c i h => ?_⟩
  rw [← Decoded.instr.inj h, decodeCmd_eq_transferOp, encode_transferOp, commandWord_partsOf]

/-- Settles O1: each word is that of its row, and its row decodes (R92, R94). -/
theorem sampleWords : Obligations.SampleWords := by
  unfold Obligations.SampleWords
  exact ⟨decodeBus_rd .cntl, decodeBus_rd .stat, decodeBus_rd (.txreq .hi), decodeBus_rd (.iface .if2 .db2),
    decodeBus_wr .cntl 0x0041#16 _ rfl, decodeBus_wr (.iface .if1 .arb2) 0x848C#16 _ rfl,
    decodeBus_wr (.iface .if1 .cmdreq) 0x0020#16 _ rfl, decodeBus_wr (.iface .if2 .cmdmsk) 0x007F#16 _ rfl,
    congrArg Decoded.instr (decodeCmd_commandWord true .if1 ⟨true, true, true, false, false, false, false⟩),
    congrArg Decoded.instr (decodeCmd_commandWord false .if2 ⟨true, true, true, true, true, true, true⟩)⟩

/-- Settles O5: the command word's direction and part selects, and the two transfers of no part. -/
theorem commandWords : Obligations.CommandWords := by
  unfold Obligations.CommandWords
  refine ⟨fun k c => ?_, fun s k p hen hp => ?_⟩
  · rw [decode, decodeCmd_eq_transferOp, transferOp]
    cases c.getLsbD 7 <;> rfl
  · obtain rfl : p = .nothing := hp
    have hwr : exec (.xferWr k .nothing) s = .next (s.withBlock (s.block.writeTransfer k .nothing)) := if_pos hen
    have hrd : exec (.xferRd k .nothing) s = .next (s.withBlock (s.block.readTransfer k .nothing)) := if_pos hen
    rw [hwr, hrd, Block.writeTransfer_nothing, Block.readTransfer_nothing]
    exact ⟨rfl, rfl⟩

end Sys2Proof

/-! SUPPORT. Bit timing (40_bit_timing.md): the criterion behind the segment table (R125), the pair of prescaler and segment count that
bt_calc takes (R120, R122), the fields of its word (R127, R131), and the calls that return or are refused before their first turn
(R130, R261). -/

namespace Sys2Proof.Machine

/-! ### The segment table (R124, R125) -/

/-- The row of x segments takes the TSEG1 nearest to (3 x + 1) / 4, where the sample point is 75 percent, the larger one on a tie, as
far as the field of TSEG1 goes. -/
theorem tsegTable_tseg1 {x : Nat} (h1 : 1 ≤ x) (h2 : x ≤ 22) : (tsegTable x).1 = min 15 ((3 * x + 3) / 4) := by
  interval_cases x <;> rfl

/-- Settles O27: the bounds of each row, and its TSEG1 as the nearest one in closed form. -/
theorem segmentTable : Obligations.SegmentTable := by
  unfold Obligations.SegmentTable
  intro x h1 h2
  obtain ⟨hsum, hlo, hhi, h7⟩ := tsegTable_bounds h1 h2
  refine ⟨hsum, hlo, hhi, h7, fun t2 _ hlo2 hhi2 => ?_⟩
  simp only [tsegTable_tseg1 h1 h2]
  omega

/-! ### The pair bt_calc takes (R120, R122) -/

/-- The prescaler p is in the range of a bit of bw cycles and divides it into 4 to 25 quanta. -/
def PrescalerFits (bw p : Nat) : Prop :=
  bw / 24 ≤ p ∧ p < bw / 4 ∧ (p + 1) ∣ bw ∧ 4 ≤ bw / (p + 1) ∧ bw / (p + 1) ≤ 25

/-- bt_calc's search for a bit of bw cycles: the prescaler and the segment count. -/
def btPair (bw : Nat) : Option (Nat × Nat) := searchPrescaler bw (bw / 24) (bw / 4 - bw / 24)

theorem prescalerFits_iff {bw p : Nat} :
    PrescalerFits bw p ↔ bw / 24 ≤ p ∧ p < bw / 4 ∧ ∃ x, searchSegments bw p 22 = some x := by
  rw [segments_fits, PrescalerFits]

/-- The three quanta that are no segment: the synchronisation quantum and the one each field leaves out (R122). -/
theorem segments_eq_quanta {bw p x : Nat} (h : searchSegments bw p 22 = some x) : x = bw / (p + 1) - 3 := by
  obtain ⟨-, -, rfl⟩ := segments_iff.1 h
  rw [Nat.mul_div_cancel _ p.succ_pos, Nat.add_sub_cancel]

/-- The search takes the least prescaler that fits. -/
theorem btPair_eq_some_iff {bw p x : Nat} :
    btPair bw = some (p, x) ↔ PrescalerFits bw p ∧ (∀ q, q < p → ¬ PrescalerFits bw q) ∧ x = bw / (p + 1) - 3 := by
  rw [btPair, prescaler_some]
  constructor
  · rintro ⟨hlo, hhi, hx, hleast⟩
    refine ⟨prescalerFits_iff.2 ⟨hlo, by omega, x, hx⟩, fun q hq hfit => ?_, segments_eq_quanta hx⟩
    obtain ⟨hqlo, -, y, hy⟩ := prescalerFits_iff.1 hfit
    rw [hleast q hqlo hq] at hy
    cases hy
  · rintro ⟨hfit, hleast, rfl⟩
    obtain ⟨hlo, hhi, x, hx⟩ := prescalerFits_iff.1 hfit
    refine ⟨hlo, by omega, segments_eq_quanta hx ▸ hx, fun q hqlo hq => Option.eq_none_iff_forall_ne_some.2 fun y hy => ?_⟩
    exact hleast q hq (prescalerFits_iff.2 ⟨hqlo, by omega, y, hy⟩)

/-- The search fails exactly when no prescaler fits. -/
theorem btPair_eq_none_iff {bw : Nat} : btPair bw = none ↔ ∀ p, ¬ PrescalerFits bw p := by
  rw [btPair, prescaler_none]
  constructor
  · intro h p hfit
    obtain ⟨hlo, hhi, x, hx⟩ := prescalerFits_iff.1 hfit
    rw [h p hlo (by omega)] at hx
    cases hx
  · intro h p hlo hhi
    exact Option.eq_none_iff_forall_ne_some.2 fun x hx => h p (prescalerFits_iff.2 ⟨hlo, by omega, x, hx⟩)

/-- What the search finds solves the equation of R122 within the segment table. -/
theorem btPair_spec {bw p x : Nat} (h : btPair bw = some (p, x)) : 1 ≤ x ∧ x ≤ 22 ∧ (x + 3) * (p + 1) = bw := by
  obtain ⟨-, -, hx, -⟩ := (prescaler_some _ _ _ _).1 h
  exact segments_iff.1 hx

/-! ### The timing word (R120, R121, R126, R127) -/

theorem btCalc_rate_zero (clk rjw : Nat) : btCalc clk 0 rjw = 0#32 := rfl

section
variable {clk rate rjw p x : Nat}

theorem btCalc_none (h : btPair (clk / rate) = none) : btCalc clk rate rjw = 0#32 := by
  unfold btPair at h
  simp [btCalc, h]

theorem btCalc_some (hr : rate ≠ 0) (h : btPair (clk / rate) = some (p, x)) :
    btCalc clk rate rjw = if p > 63 then 0#32 else BitVec.ofNat 32 (timingValue p x rjw) := by
  unfold btPair at h
  simp [btCalc, h, hr]

/-- A prescaler above the field of BRP is no result (R126). -/
theorem btCalc_large (hr : rate ≠ 0) (h : btPair (clk / rate) = some (p, x)) (hp : 63 < p) : btCalc clk rate rjw = 0#32 := by
  rw [btCalc_some hr h, if_pos hp]

/-- The word of a pair as a number (R127). -/
theorem toNat_btCalc (hr : rate ≠ 0) (h : btPair (clk / rate) = some (p, x)) (hp : p ≤ 63) (hj : rjw ≤ 3) :
    (btCalc clk rate rjw).toNat = (tsegTable x).2 * 4096 + (tsegTable x).1 * 256 + rjw * 64 + p := by
  obtain ⟨h1, h2, -⟩ := btPair_spec h
  rw [btCalc_some hr h, if_neg (by omega), toNat_timing p x rjw hp hj h1 h2]

/-- The word is not 0 exactly when the search finds a prescaler that BRP holds, since TSEG1 is at least 1 (R129). -/
theorem btCalc_ne_zero_iff (hr : rate ≠ 0) (hj : rjw ≤ 3) :
    btCalc clk rate rjw ≠ 0#32 ↔ ∃ p x, btPair (clk / rate) = some (p, x) ∧ p ≤ 63 := by
  constructor
  · intro hw
    match h : btPair (clk / rate) with
    | none => exact absurd (btCalc_none h) hw
    | some (p, x) => exact ⟨p, x, rfl, Nat.not_lt.1 fun hp => hw (btCalc_large hr h hp)⟩
  · rintro ⟨p, x, h, hp⟩ hw
    obtain ⟨h1, h2, -⟩ := btPair_spec h
    obtain ⟨-, ht1, -, -⟩ := tsegTable_bounds h1 h2
    have hnum := toNat_btCalc hr h hp hj
    rw [hw, BitVec.toNat_ofNat] at hnum
    omega

/-- The word fits in bits 14:0 (R129). -/
theorem toNat_btCalc_lt (hr : rate ≠ 0) (hj : rjw ≤ 3) : (btCalc clk rate rjw).toNat < 2 ^ 15 := by
  by_cases hw : btCalc clk rate rjw = 0#32
  · rw [hw]
    decide
  · obtain ⟨p, x, h, hp⟩ := (btCalc_ne_zero_iff hr hj).1 hw
    obtain ⟨h1, h2, -⟩ := btPair_spec h
    obtain ⟨-, -, ht1, ht2⟩ := tsegTable_bounds h1 h2
    rw [toNat_btCalc hr h hp hj]
    omega

/-- The fields of a word as numbers (R131). -/
theorem btDecode_eq (w : BitVec 32) :
    btDecode w = { clkdiv := w.toNat / 65536, tseg2 := w.toNat / 4096 % 8, tseg1 := w.toNat / 256 % 16, sjw := w.toNat / 64 % 4,
                   brp := w.toNat % 64 } := by
  have hhigh : w.toNat / 65536 < 65536 := Nat.div_lt_of_lt_mul w.isLt
  simp [btDecode, Nat.shiftRight_eq_div_pow, hhigh]

/-- The fields of bt_calc's word are the parts it was packed of (R127, R131). -/
theorem btDecode_btCalc (hr : rate ≠ 0) (h : btPair (clk / rate) = some (p, x)) (hp : p ≤ 63) (hj : rjw ≤ 3) :
    btDecode (btCalc clk rate rjw) =
      { clkdiv := 0, tseg2 := (tsegTable x).2, tseg1 := (tsegTable x).1, sjw := rjw, brp := p } := by
  obtain ⟨h1, h2, -⟩ := btPair_spec h
  obtain ⟨-, -, ht1, ht2⟩ := tsegTable_bounds h1 h2
  rw [btDecode_eq, toNat_btCalc hr h hp hj, BitTiming.mk.injEq]
  omega

/-- The bit period of bt_calc's word is the bit width (R129). -/
theorem bitPeriod_btCalc (hr : rate ≠ 0) (h : btPair (clk / rate) = some (p, x)) (hp : p ≤ 63) (hj : rjw ≤ 3) :
    bitPeriod (btDecode (btCalc clk rate rjw)) = clk / rate := by
  obtain ⟨h1, h2, hx⟩ := btPair_spec h
  obtain ⟨hsum, -, -, -⟩ := tsegTable_bounds h1 h2
  rw [btDecode_btCalc hr h hp hj, bitPeriod, hsum, hx, Nat.zero_add, Nat.mul_one]

end

/-- The sample point is the quanta before it over all quanta of the bit (R125, R131). -/
theorem samplePoint_mul (t : BitTiming) :
    samplePoint t * ((t.tseg1 + t.tseg2 + 3 : Nat) : Rat) = ((t.tseg1 + 2 : Nat) : Rat) :=
  div_mul_cancel₀ _ (Nat.cast_ne_zero.2 (Nat.succ_ne_zero _))

/-- BTCALC within its domain returns bt_calc's word (R120). -/
theorem exec_btcalc {clk rate rjw : Nat} (s : State) (hj : rjw ≤ 3) :
    exec (.btcalc clk rate rjw) s = .next (s.returnCall (.timing (btCalc clk rate rjw))) :=
  congrArg Host.Outcome.next (if_neg (Nat.not_lt.2 hj))

/-- A call's result is the running context's last result. -/
theorem State.returnCall_ret (s : State) (r : Ret) : ((s.returnCall r).ctx s.running).ret = r := by
  rw [State.returnCall, State.ctx_setCtx_same]

/-- Settles O25: the search takes the least prescaler that fits, and its pair's word is the packed one. -/
theorem btSearch : Obligations.BtSearch := by
  unfold Obligations.BtSearch
  intro s clk rate rjw hj
  refine ⟨btCalc clk rate rjw, exec_btcalc s hj, ?_, fun hnone => ?_, fun p hr hfit hleast hp => ?_, fun p hr hfit hleast hp => ?_⟩
  · rintro rfl
    exact btCalc_rate_zero clk rjw
  · exact btCalc_none (btPair_eq_none_iff.2 hnone)
  · exact btCalc_large hr (btPair_eq_some_iff.2 ⟨hfit, hleast, rfl⟩) hp
  · exact toNat_btCalc hr (btPair_eq_some_iff.2 ⟨hfit, hleast, rfl⟩) hp hj

/-- Settles O26: a nonzero word is that of a pair the search found, whose parts are its fields. -/
theorem btProperties : Obligations.BtProperties := by
  unfold Obligations.BtProperties
  refine ⟨fun w => ⟨_, _, _, _, rfl, rfl, rfl, rfl, btDecode_eq w, ?_, ?_⟩, ?_⟩
  · rw [btDecode_eq, bitPeriod]
  · have h := samplePoint_mul (btDecode w)
    rw [btDecode_eq] at h ⊢
    exact h
  intro s t clk rate rjw w hj hr hexec hret
  obtain rfl : s.returnCall (.timing (btCalc clk rate rjw)) = t := Host.Outcome.next.inj ((exec_btcalc s hj).symm.trans hexec)
  obtain rfl : btCalc clk rate rjw = w := Ret.timing.inj ((s.returnCall_ret _).symm.trans hret)
  have hiff := btCalc_ne_zero_iff (clk := clk) hr hj
  have hlt := toNat_btCalc_lt (clk := clk) hr hj
  refine ⟨hiff, fun hw => ?fields, fun hno => ?unsolved, fun hw hlow => hw ?low, fun hw => ?period⟩
  case fields =>
    obtain ⟨p, x, h, hp⟩ := hiff.1 hw
    obtain ⟨h1, h2, hx⟩ := btPair_spec h
    obtain ⟨hsum, hlo, -, -⟩ := tsegTable_bounds h1 h2
    obtain ⟨-, htseg2, htseg1, hsjw, hbrp⟩ := BitTiming.mk.inj (btDecode_btCalc hr h hp hj)
    rw [htseg2, htseg1, hsjw, hbrp, hsum]
    refine ⟨BitVec.eq_of_toNat_eq ?_, rfl, hlo, hx⟩
    rw [BitVec.extractLsb'_toNat, Nat.shiftRight_eq_div_pow, Nat.div_eq_of_lt hlt]
    rfl
  case unsolved =>
    by_contra hw
    obtain ⟨p, x, h, hp⟩ := hiff.1 hw
    obtain ⟨h1, h2, hx⟩ := btPair_spec h
    exact hno p x h1 h2 hp hx
  case low =>
    have hmod := congrArg BitVec.toNat hlow
    rw [BitVec.extractLsb'_toNat, Nat.shiftRight_zero, Nat.mod_eq_of_lt (by omega)] at hmod
    exact BitVec.eq_of_toNat_eq hmod
  case period =>
    obtain ⟨p, x, h, hp⟩ := hiff.1 hw
    exact bitPeriod_btCalc hr h hp hj

/-! ### Calls that end before their first turn -/

/-- A run whose call has returned, or whose machine is refused, takes no turn. -/
theorem runTurns_of_returned {c : CtxId} {d : Nat} {s : State} (h : s.returned c d = true) (ts : List Turn) :
    runTurns c d ts s = s.withTurns ts := by
  cases ts with
  | nil => rfl
  | cons t ts => exact if_pos h

/-- A call that gives its result at once (R130). -/
theorem runCall_of_return {start : State → State} {s : State} {r : Ret} (h : start s = s.returnCall r) :
    runCall start s = s.returnCall r := by
  have hret : (s.returnCall r).returned s.running (s.ctx s.running).calls.length = true := by
    simp [State.returned, State.returnCall]
  rw [runCall, h, runTurns_of_returned hret, ← s.returnCall_turns r]
  rfl

/-- A call that is refused at once (R261). -/
theorem runCall_of_refuse {start : State → State} {s : State} {m : RefusalMark} (h : start s = s.refuse m) :
    runCall start s = s.refuse m := by
  have href : (s.refuse m).returned s.running (s.ctx s.running).calls.length = true := Bool.or_true _
  rw [runCall, h, runTurns_of_returned href]
  rfl

/-- A filter's identifier or mask is wider than its format (R192). -/
theorem badFilterOperand_isSome {id mask : Nat} {fmt : Fmt} (h : fmt.maxId < id ∨ fmt.maxId < mask) :
    ∃ o, badFilterOperand id mask fmt = some o := by
  unfold badFilterOperand
  split
  next => exact ⟨_, rfl⟩
  next hid => exact ⟨_, if_pos (h.resolve_left hid)⟩

/-- A frame's identifier is wider than its format, or its length is above 8 (R202). -/
theorem badFrameOperand_isSome {f : Frame} (h : f.fmt.maxId < f.id ∨ 8 < f.len) : ∃ o, badFrameOperand f = some o := by
  unfold badFrameOperand
  split
  next => exact ⟨_, rfl⟩
  next hid => exact ⟨_, if_pos (h.resolve_left hid)⟩

/-- A call of install_filter outside its domain begins with the refusal (R192). -/
theorem startInstallFilter_refuses (s : State) {id mask slot : Nat} {fmt : Fmt}
    (h : fmt.maxId < id ∨ fmt.maxId < mask ∨ 32 < slot) :
    ∃ o, startInstallFilter id mask fmt slot s = s.refuse (.argDomain .installFilter o) := by
  unfold startInstallFilter
  split
  next o _ => exact ⟨o, rfl⟩
  next hnone =>
    have hslot : 32 < slot := by
      by_contra hs
      obtain ⟨o, ho⟩ := badFilterOperand_isSome (id := id) (mask := mask) (fmt := fmt) (by omega)
      rw [hnone] at ho
      cases ho
    exact ⟨_, if_pos hslot⟩

/-- Settles O31: each call begins with the refusal, and a refused call takes no turn. -/
theorem domainRefusals : Obligations.DomainRefusals := by
  unfold Obligations.DomainRefusals
  refine fun s => ⟨fun clk rate rjw h => ?btcalc, fun id mask fmt h => ?packFilter, fun id mask fmt slot _ h => ?installFilter,
    fun f h => ?packTx, fun f flags _ h => ?send, fun slot _ h => ?receive⟩
  case btcalc => exact congrArg Host.Outcome.next (if_pos h)
  case packFilter =>
    obtain ⟨o, ho⟩ := badFilterOperand_isSome h
    have hstart : startPackFilter id mask fmt s = s.refuse (.argDomain .packFilter o) := by rw [startPackFilter, ho]
    exact ⟨o, congrArg Host.Outcome.next hstart⟩
  case installFilter =>
    obtain ⟨o, ho⟩ := startInstallFilter_refuses s h
    exact ⟨o, congrArg Host.Outcome.next (runCall_of_refuse ho)⟩
  case packTx =>
    obtain ⟨o, ho⟩ := badFrameOperand_isSome h
    have hstart : startPackTx f s = s.refuse (.argDomain .packTx o) := by rw [startPackTx, ho]
    exact ⟨o, congrArg Host.Outcome.next hstart⟩
  case send =>
    obtain ⟨o, ho⟩ := badFrameOperand_isSome h
    have hstart : startSend f flags s = s.refuse (.argDomain .send o) := by rw [startSend, ho]
    exact ⟨o, congrArg Host.Outcome.next (runCall_of_refuse hstart)⟩
  case receive => exact congrArg Host.Outcome.next (runCall_of_refuse (if_pos h))

/-! ### SET_BITRATE (R130) -/

/-- Settles O37: an unsatisfiable rate returns at once; else the chain of set_bitrate's writes leads to the return, or to the wait that
stalls. -/
theorem setBitrate : Obligations.SetBitrate := by
  unfold Obligations.SetBitrate
  intro s rate hs w
  have hplan : w ≠ 0#32 → startSetBitrate rate s = s.startPlan (setBitratePlan w false ++ [.ret (.value 1)]) := fun hw => if_neg hw
  refine ⟨fun hw => ?unsatisfiable, fun ts hw ht => ?returns, fun m ts hw hi hm ht => ?stalls⟩
  case unsatisfiable =>
    have hstart : startSetBitrate rate s = s.returnCall (.fail .btUnsatisfiable) := if_pos hw
    exact ⟨_, congrArg Host.Outcome.next (runCall_of_return hstart), s.fresh, (s.ctx s.running).rdata, rfl⟩
  case returns =>
    have hchain := leads_setBitrate (cs := (s.ctx s.running).calls) (ts := ts) (b := s.block) (todo := [.ret (.value 1)])
      s.runs_running hs w false
    exact State.Leads.returned (hplan hw) (ht ▸ hchain)
  case stalls =>
    have hwrites := leads_bitrateWrites (cs := (s.ctx s.running).calls) (ts := Safety.stallTurns m ++ ts) (b := s.block)
      (todo := [.ret (.value 1)]) s.runs_running hs w false
    rw [hi, ← List.append_assoc, ← ht] at hwrites
    exact State.Leads.returned (hplan hw) (hwrites.trans (leads_stallInit s.runs_running hs hm rfl))

end Sys2Proof.Machine

/-! SUPPORT. What every agent's step keeps (R9): the machine's invariant, the interface of a transfer in flight (R155), and an object's
validity flag (R48, R162). Each is one case for each kind of move. -/

namespace Sys2Proof.Machine

/-! ### What reads, transfers, resets and the protocol engine leave of the block -/

@[simp] theorem Block.afterRead_iface (b : Block) (r : Reg) (k : IfId) : (b.afterRead r).iface k = b.iface k := by
  unfold Block.afterRead; split <;> rfl
@[simp] theorem Block.afterRead_cntl (b : Block) (r : Reg) : (b.afterRead r).cntl = b.cntl := by
  unfold Block.afterRead; split <;> rfl
@[simp] theorem Block.afterRead_initPending (b : Block) (r : Reg) : (b.afterRead r).initPending = b.initPending := by
  unfold Block.afterRead; split <;> rfl

/-- The protocol engine touches neither interface (R267). -/
@[simp] theorem Block.peEffect_iface (b : Block) (strict : Bool) (e : PeEvent) (k : IfId) :
    (b.peEffect strict e).iface k = b.iface k := by
  cases e <;> cases k <;> rfl

/-- A transfer touches one interface only (R169). -/
theorem Block.writeTransfer_iface_other (b : Block) {k j : IfId} (h : j ≠ k) (p : Parts) :
    (b.writeTransfer k p).iface j = b.iface j := by
  simp [Block.writeTransfer, Block.iface_setIface_other _ h]
theorem Block.readTransfer_iface_other (b : Block) {k j : IfId} (h : j ≠ k) (p : Parts) :
    (b.readTransfer k p).iface j = b.iface j := by
  simp [Block.readTransfer, Block.iface_setIface_other _ h]

@[simp] theorem Block.writeTransfer_cntl (b : Block) (k : IfId) (p : Parts) : (b.writeTransfer k p).cntl = b.cntl := by
  simp [Block.writeTransfer]
@[simp] theorem Block.writeTransfer_initPending (b : Block) (k : IfId) (p : Parts) :
    (b.writeTransfer k p).initPending = b.initPending := by
  simp [Block.writeTransfer]
@[simp] theorem Block.readTransfer_cntl (b : Block) (k : IfId) (p : Parts) : (b.readTransfer k p).cntl = b.cntl := by
  simp [Block.readTransfer]
@[simp] theorem Block.readTransfer_initPending (b : Block) (k : IfId) (p : Parts) :
    (b.readTransfer k p).initPending = b.initPending := by
  simp [Block.readTransfer]

/-- After a reset both interfaces are a drawn one's reset value (R300). -/
theorem Block.afterReset_iface (drawn : Block) (k : IfId) : (Block.afterReset drawn).iface k = (drawn.iface k).afterReset := by
  cases k <;> rfl

/-- A transfer completes only with reset released (R160). -/
theorem State.xferEnabled_iff {s : State} {k : IfId} :
    s.xferEnabled k = true ↔ (s.block.iface k).busy = true ∧ s.admitted = true := by
  rw [State.xferEnabled, Bool.and_eq_true]

/-! ### The invariant -/

/-- An idle interface has the invariant as soon as its reserved bits hold nothing (R38). -/
theorem ifaceInv_of_idle {f : Iface} (hbusy : f.busy = false) (hmsk2 : f.msk2 &&& 0x2000#16 = 0#16)
    (hmctrl : f.mctrl &&& 0x0070#16 = 0#16) : Safety.IfaceInv f where
  cmd h := by rw [hbusy] at h; cases h
  slot h := by rw [hbusy] at h; cases h
  msk2 := hmsk2
  mctrl := hmctrl

/-- An interface after a reset has the invariant, whatever was drawn (R300). -/
theorem Iface.afterReset_inv (f : Iface) : Safety.IfaceInv f.afterReset :=
  ifaceInv_of_idle rfl (by rw [Iface.afterReset, BitVec.and_assoc]; exact BitVec.and_zero)
    (by rw [Iface.afterReset, BitVec.and_assoc]; exact BitVec.and_zero)

/-- A write transfer leaves its interface idle and every staging register as it was (R160). -/
theorem Block.writeTransfer_inv {b : Block} (hb : ∀ j, Safety.IfaceInv (b.iface j)) (k : IfId) (p : Parts) (j : IfId) :
    Safety.IfaceInv ((b.writeTransfer k p).iface j) := by
  by_cases hj : j = k
  · subst hj
    rw [Block.writeTransfer_iface]
    exact ifaceInv_of_idle rfl (hb j).msk2 (hb j).mctrl
  · rw [Block.writeTransfer_iface_other b hj]
    exact hb j

/-- A read transfer leaves its interface idle, and what it loads from an object has no reserved bit (R167). -/
theorem Block.readTransfer_inv {b : Block} (hb : ∀ j, Safety.IfaceInv (b.iface j)) (k : IfId) (p : Parts) (j : IfId) :
    Safety.IfaceInv ((b.readTransfer k p).iface j) := by
  by_cases hj : j = k
  · subst hj
    rw [Block.readTransfer_iface]
    refine ifaceInv_of_idle rfl ?_ ?_
    · rw [Iface.loaded_msk2]
      split
      · exact objMsk2_reserved _
      · exact (hb j).msk2
    · rw [Iface.loaded_mctrl]
      split
      · exact objMctrl_reserved _
      · exact (hb j).mctrl
  · rw [Block.readTransfer_iface_other b hj]
    exact hb j

/-- Neither an acknowledgment nor a bus-off makes an acknowledgment pend while INIT is 1 (R266). -/
theorem Block.peEffect_pending {b : Block} (hb : b.initPending = true → b.cntl.init = false) (strict : Bool) (e : PeEvent)
    (h : (b.peEffect strict e).initPending = true) : (b.peEffect strict e).cntl.init = false := by
  cases e with
  | initAck => cases h
  | error ec boff ewarn epass lec gE =>
    cases boff with
    | true => cases h
    | false => exact hb h
  | _ => exact hb h

/-- Where transactions are admitted the invariant's clause on an asserted reset says nothing (R43). -/
theorem inv_of_admitted {s s' : State} (ha : s.admitted = true) (hr : s'.rst = s.rst)
    (hiface : ∀ k, Safety.IfaceInv (s'.block.iface k)) (hpending : s'.block.initPending = true → s'.block.cntl.init = false)
    (hfaults : s'.faults.Nodup) : Safety.Inv s' where
  iface := hiface
  pending := hpending
  reset h := by
    rw [hr, (State.admitted_iff.1 ha).2] at h
    cases h
  faults := hfaults

/-- A move keeps the invariant. -/
theorem State.Moves.inv {s s' : State} {t : Turn} (h : s.Moves t s') (hi : Safety.Inv s) : Safety.Inv s' := by
  obtain ⟨hiface, hpending, hreset, hfaults⟩ := hi
  cases h with
  | same _ _ hb hr hf =>
    rw [← hb] at hiface hpending hreset
    exact ⟨hiface, hpending, hr ▸ hreset, hf ▸ hfaults⟩
  | read r _ ha hb hr hf =>
    exact inv_of_admitted ha hr (by simpa [hb] using hiface) (by simpa [hb] using hpending) (hf ▸ hfaults)
  | stored r v _ ha hb hr hf =>
    obtain ⟨hiface', hpending'⟩ := writeReg_inv hb hiface hpending
    exact inv_of_admitted ha hr hiface' hpending' (hf ▸ hfaults)
  | fault r v f _ ha _ hb hr hf =>
    exact inv_of_admitted ha hr (hb ▸ hiface) (hb ▸ hpending) (hf ▸ State.recordFault_nodup f hfaults)
  | reset n _ hb hr hf =>
    refine ⟨fun k => ?_, ?_, fun _ => ?_, hf ▸ hfaults⟩ <;> rw [hb]
    · rw [Block.afterReset_iface]
      exact Iface.afterReset_inv _
    · exact nofun
    · exact ⟨rfl, rfl, rfl, rfl, rfl⟩
  | release _ hb hr hf =>
    exact ⟨hb ▸ hiface, hb ▸ hpending, fun h => (by rw [hr] at h; cases h), hf ▸ hfaults⟩
  | writeTransfer k p _ hx hb hr hf =>
    exact inv_of_admitted (State.xferEnabled_iff.1 hx).2 hr (hb ▸ Block.writeTransfer_inv hiface k p)
      (by simpa [hb] using hpending) (hf ▸ hfaults)
  | readTransfer k p _ hx hb hr hf =>
    exact inv_of_admitted (State.xferEnabled_iff.1 hx).2 hr (hb ▸ Block.readTransfer_inv hiface k p)
      (by simpa [hb] using hpending) (hf ▸ hfaults)
  | engine e _ ha _ hb hr hf =>
    exact inv_of_admitted ha hr (by simpa [hb] using hiface) (hb ▸ Block.peEffect_pending hpending _ e) (hf ▸ hfaults)

/-- Settles O56: every move keeps the invariant, so every step does. -/
theorem invKept : Obligations.InvKept := by
  unfold Obligations.InvKept
  intro s t hs h
  exact step_keeps (fun _ _ hu ⟨_, hx⟩ => hx.inv hu) hs h

/-! ### A transfer in flight (R155) -/

/-- No move but its own transfer's completion changes an interface with a transfer in flight, or reset abandons it (R155, R300). -/
theorem State.Moves.iface_of_busy {s s' : State} {t : Turn} {k : IfId} (h : s.Moves t s') (hbusy : (s.block.iface k).busy = true)
    (ht : t ≠ .xfer k) :
    s'.block.iface k = s.block.iface k ∨ (t = .host ∧ s'.rst = true ∧ (s'.block.iface k).busy = false) := by
  cases h with
  | same _ _ hb => exact .inl (by rw [hb])
  | read r _ _ hb => exact .inl (by rw [hb, Block.afterRead_iface])
  | stored r v _ _ hb => exact .inl (busy_kept hbusy (.inr (.inr ⟨r, v, hb⟩)))
  | fault _ _ _ _ _ _ hb => exact .inl (by rw [hb])
  | reset n _ hb hr => exact .inr ⟨rfl, hr, by rw [hb, Block.afterReset_iface]; rfl⟩
  | release _ hb => exact .inl (by rw [hb])
  | writeTransfer j p _ _ hb =>
    have hkj : k ≠ j := fun e => ht (e ▸ rfl)
    exact .inl (by rw [hb, Block.writeTransfer_iface_other _ hkj])
  | readTransfer j p _ _ hb =>
    have hkj : k ≠ j := fun e => ht (e ▸ rfl)
    exact .inl (by rw [hb, Block.readTransfer_iface_other _ hkj])
  | engine e _ _ _ hb => exact .inl (by rw [hb, Block.peEffect_iface])

/-- Settles O59: the agents' turns by the kinds of move, the host's own operations by what they do to the block. -/
theorem busyLock : Obligations.BusyLock := by
  unfold Obligations.BusyLock
  intro s k hbusy
  refine ⟨fun t ht => (s.agentStep_moves t).iface_of_busy hbusy ht, fun i t hi h => busy_kept hbusy (exec_bus_block hi h),
    fun op ts t h hp hs => ?_⟩
  obtain ⟨hop, rfl⟩ | hkept := issues_block h hp hs
  · exact .inr ⟨hop, rfl, by rw [State.envReset_true_block, Block.afterReset_iface]; rfl⟩
  · exact .inl (busy_kept hbusy hkept)

/-! ### The validity flag (R48, R162) -/

/-- A block whose message RAM had an object replaced by one with the same flag shows every flag as before. -/
theorem Block.msgval_of_setObj {b b' : Block} {m : Slot} {o : Obj} (hb : b'.objs = (b.setObj m o).objs)
    (h : o.msgval = (b.obj m).msgval) (n : Slot) : (b'.obj n).msgval = (b.obj n).msgval := by
  have hobj : b'.obj n = (b.setObj m o).obj n := by rw [Block.obj, hb, Block.obj]
  by_cases hn : n = m
  · subst hn
    rw [hobj, Block.obj_setObj_same, h]
  · rw [hobj, Block.obj_setObj_other _ hn]

/-- No step of the protocol engine changes a validity flag (R266). -/
theorem Block.peEffect_msgval (b : Block) (strict : Bool) (e : PeEvent) (n : Slot) :
    ((b.peEffect strict e).obj n).msgval = (b.obj n).msgval := by
  cases e with
  | initAck => rfl
  | error => rfl
  | txDone m | rxStore m | remoteReq m => exact Block.msgval_of_setObj (m := m) (by exact rfl) (by exact rfl) n

/-- A read transfer clears no validity flag (R168). -/
theorem Block.readTransfer_msgval (b : Block) (k : IfId) (p : Parts) (n : Slot) :
    ((b.readTransfer k p).obj n).msgval = (b.obj n).msgval := by
  rw [Block.readTransfer, Block.obj_setIface]
  exact Block.msgval_of_setObj rfl (by rw [Obj.cleared_eq]) n

/-- A write transfer without the ARB part leaves every validity flag (R162). -/
theorem Block.writeTransfer_msgval {p : Parts} (h : p.arb = false) (b : Block) (k : IfId) (n : Slot) :
    ((b.writeTransfer k p).obj n).msgval = (b.obj n).msgval := by
  rw [Block.writeTransfer, Block.obj_setIface]
  exact Block.msgval_of_setObj rfl (by rw [Obj.written_msgval, h]; rfl) n

/-- A completed transfer that changed an object's validity flag was a write with the ARB part that addressed it (R162). -/
theorem Block.transferDone_msgval {b : Block} {k : IfId} {c : Byte} {n : Slot}
    (h : ((b.transferDone k c).obj n).msgval ≠ (b.obj n).msgval) :
    (b.iface k).slot = n ∧ c.getLsbD 7 = true ∧ c.getLsbD 5 = true := by
  unfold Block.transferDone at h
  split at h
  next hwrite =>
    refine ⟨?_, hwrite, ?_⟩
    · by_contra hslot
      exact h (by rw [Block.writeTransfer_obj_other _ _ _ (Ne.symm hslot)])
    · by_contra harb
      exact h (Block.writeTransfer_msgval (Bool.eq_false_iff.2 harb) b k n)
  next => exact absurd (b.readTransfer_msgval k _ n) h

/-- A turn of XFER_k that changed a validity flag completed such a transfer. -/
theorem State.xferStep_msgval {s : State} {k : IfId} {n : Slot}
    (h : ((s.xferStep k).block.obj n).msgval ≠ (s.block.obj n).msgval) :
    s.xferEnabled k = true ∧ (s.block.iface k).slot = n ∧ (s.block.iface k).cmd.getLsbD 7 = true ∧
      (s.block.iface k).cmd.getLsbD 5 = true := by
  unfold State.xferStep at h
  split at h
  next hx => exact ⟨hx, Block.transferDone_msgval h⟩
  next => exact absurd rfl h

/-- No move of another agent than XFER_k changes a validity flag but a reset (R48, R300). -/
theorem State.Moves.msgval {s s' : State} {t : Turn} (h : s.Moves t s') (ht : ∀ k, t ≠ .xfer k) (n : Slot) :
    (s'.block.obj n).msgval = (s.block.obj n).msgval ∨ (t = .host ∧ s'.rst = true) := by
  have hobjs : s'.block.objs = s.block.objs → (s'.block.obj n).msgval = (s.block.obj n).msgval := fun e => by
    rw [Block.obj, e]; rfl
  cases h with
  | same _ _ hb => exact .inl (by rw [hb])
  | read r _ _ hb => exact .inl (hobjs (objs_kept (.inl ⟨r, hb⟩)))
  | stored r v _ _ hb => exact .inl (hobjs (objs_kept (.inr (.inr ⟨r, v, hb⟩))))
  | fault _ _ _ _ _ _ hb => exact .inl (by rw [hb])
  | reset _ _ _ hr => exact .inr ⟨rfl, hr⟩
  | release _ hb => exact .inl (by rw [hb])
  | writeTransfer k => exact absurd rfl (ht k)
  | readTransfer k => exact absurd rfl (ht k)
  | engine e _ _ _ hb => exact .inl (by rw [hb, Block.peEffect_msgval])

/-- Settles O60: XFER_k's turn by what its transfer selects, the other agents' turns by the kinds of move, and the host's own operations
by what they do to the message RAM. -/
theorem validityFlag : Obligations.ValidityFlag := by
  unfold Obligations.ValidityFlag
  refine fun s n => ⟨fun t h => ?turn, fun i t hi h => ?bus, fun op ts t h hp hs => ?issued⟩
  case turn =>
    by_cases hx : ∃ k, t = .xfer k
    · obtain ⟨k, rfl⟩ := hx
      unfold State.agentStep at h
      split at h
      · exact absurd rfl h
      · exact .inl ⟨k, rfl, State.xferStep_msgval h⟩
    · rcases (s.agentStep_moves t).msgval (fun k e => hx ⟨k, e⟩) n with hkept | hreset
      · exact absurd hkept h
      · exact .inr hreset
  case bus => rw [Block.obj, objs_kept (exec_bus_block hi h)]; rfl
  case issued =>
    obtain ⟨hop, rfl⟩ | hkept := issues_block h hp hs
    · exact .inr ⟨hop, rfl⟩
    · exact .inl (by rw [Block.obj, objs_kept hkept]; rfl)

end Sys2Proof.Machine

/-! SUPPORT. Register reads (R142, R148, R149, R151, R154): which bits of CNTL, STAT, TEST and an interface's registers a read defines. -/

namespace Sys2Proof.Machine

/-! ### The word of an admitted read -/

/-- An admitted read of a register other than STAT returns the register's word and changes no block state (R78). -/
theorem exec_readOp_keeps {s : State} (ha : s.admitted = true) {r : Reg} (hr : r ≠ .stat) :
    ∃ t, exec (readOp r) s = .next t ∧ Safety.ReadGave s s.block (s.readWord r) t := by
  have h := exec_readOp_gives ha r
  rwa [s.block.afterRead_of_ne_stat hr] at h

/-- With a mask under which no bit is open, a read's word is the defined word. -/
theorem State.readWord_and (s : State) (r : Reg) {m : Word} (hm : s.block.openBits r &&& m = 0#16) :
    s.readWord r &&& m = s.block.known r &&& m := by
  apply word_ext
  intro i hi
  rw [BitVec.getLsbD_and, BitVec.getLsbD_and]
  cases hmi : m.getLsbD i with
  | false => simp
  | true =>
    have hopen : (s.block.openBits r).getLsbD i = false := by
      have := congrArg (fun w => w.getLsbD i) hm
      simpa only [BitVec.getLsbD_and, hmi, Bool.and_true, BitVec.getLsbD_zero] using this
    rw [s.getLsbD_readWord r i hi hopen]

/-! ### An interface's registers -/

/-- CMDREQ shows its register at any time, BUSY included (R151). -/
theorem Block.known_cmdreq (b : Block) (k : IfId) : b.known (.iface k .cmdreq) = cmdreqWord (b.iface k) := by
  simp [Block.known, Block.midTransfer, Iface.stored]

theorem Block.openBits_cmdreq (b : Block) (k : IfId) : b.openBits (.iface k .cmdreq) = 0x7FC0#16 := by
  simp [Block.openBits, Block.midTransfer, reservedBits]

/-- While the interface is idle a read shows the stored register, and leaves its reserved bits open (R154). -/
theorem Block.known_of_idle {b : Block} {k : IfId} (h : (b.iface k).busy = false) (x : IfReg) :
    b.known (.iface k x) = (b.iface k).stored x := by
  simp [Block.known, Block.midTransfer, h]

theorem Block.openBits_of_idle {b : Block} {k : IfId} (h : (b.iface k).busy = false) (x : IfReg) :
    b.openBits (.iface k x) = reservedBits (.iface k x) := by
  simp [Block.openBits, Block.midTransfer, h]

/-- A register without reserved bits reads as it is stored while the interface is idle (R154). -/
theorem State.readWord_of_idle {s : State} {k : IfId} (h : (s.block.iface k).busy = false) {x : IfReg}
    (hx : reservedBits (.iface k x) = 0#16) : s.readWord (.iface k x) = (s.block.iface k).stored x := by
  rw [s.readWord_closed _ ((Block.openBits_of_idle h x).trans hx), Block.known_of_idle h]

/-! ### The obligations -/

/-- Settles O10, bit by bit: none of the bits named is open. -/
theorem rdCntl : Obligations.RdCntl := by
  unfold Obligations.RdCntl
  intro s hclk hrst
  obtain ⟨t, ht, hgave⟩ := exec_readOp_keeps (State.admitted_iff.2 ⟨hclk, hrst⟩) (r := .cntl) nofun
  have hbit : ∀ i, i < 16 → (reservedBits .cntl).getLsbD i = false →
      (s.readWord .cntl).getLsbD i = (cntlWord s.block.cntl s.block.initReads).getLsbD i :=
    fun i hi ho => s.getLsbD_readWord .cntl i hi ho
  refine ⟨_, t, ht, hgave, ?_, ?_, ?_, ?_, ?_, ?_, ?_⟩ <;> rw [hbit _ (by decide) (by decide)] <;>
    simp [cntlWord, getElem_flag, Block.initReads]

/-- Settles O11, bit by bit: none of the bits named is open. -/
theorem rdStat : Obligations.RdStat := by
  unfold Obligations.RdStat
  intro s hclk hrst
  obtain ⟨t, ht, hgave⟩ := exec_readOp_gives (State.admitted_iff.2 ⟨hclk, hrst⟩) .stat
  have hbit : ∀ i, i < 16 → (reservedBits .stat).getLsbD i = false →
      (s.readWord .stat).getLsbD i = (statWord s.block.stat).getLsbD i :=
    fun i hi ho => s.getLsbD_readWord .stat i hi ho
  have hlec : (s.readWord .stat).extractLsb' 0 3 = s.block.stat.lec := by
    rw [s.readWord_field .stat 0 3 (by decide) (by simp [Block.openBits, reservedBits]), Block.known]
    apply BitVec.eq_of_getLsbD_eq
    intro i hi
    interval_cases i <;> simp [statWord, getElem_flag, getElem_field]
  refine ⟨_, t, ht, hgave, ?_, ?_, ?_, ?_, ?_, hlec⟩ <;> rw [hbit _ (by decide) (by decide)] <;>
    simp [statWord, getElem_flag, getElem_field]

/-- Settles O12: EC and CLKDIV have no open bit, BT's is above its field, and TEST's are named by CNTL.TEST. -/
theorem rdPlain : Obligations.RdPlain := by
  unfold Obligations.RdPlain
  intro s hclk hrst
  have hadm : s.admitted = true := State.admitted_iff.2 ⟨hclk, hrst⟩
  refine ⟨exec_readOp_closed hadm (r := .ec) nofun rfl, ?bt, exec_readOp_closed hadm (r := .clkdiv) nofun rfl, ?test⟩
  case bt =>
    obtain ⟨t, ht, hgave⟩ := exec_readOp_keeps hadm (r := .bt) nofun
    refine ⟨_, t, ht, hgave, (s.readWord_field .bt 0 15 (by decide) (by simp [Block.openBits, reservedBits])).trans ?_⟩
    rw [Block.known, BitVec.extractLsb'_setWidth_of_le (by decide), BitVec.extractLsb'_eq_self]
  case test =>
    obtain ⟨t, ht, hgave⟩ := exec_readOp_keeps hadm (r := .test) nofun
    refine ⟨_, t, ht, hgave, ?_, fun htest => ?_⟩
    · rw [s.readWord_field .test 5 2 (by decide) (by rw [Block.openBits]; split <;> rfl), Block.known]
      split
      · apply BitVec.eq_of_getLsbD_eq
        intro i hi
        interval_cases i <;> simp [testWord, getElem_flag]
      · rfl
    · have hopen : s.block.openBits .test = 0xFF83#16 := if_pos htest
      have hknown : s.block.known .test = testWord s.block.test := if_pos htest
      have hbit : ∀ i, i < 16 → (0xFF83#16 : Word).getLsbD i = false →
          (s.readWord .test).getLsbD i = (testWord s.block.test).getLsbD i :=
        fun i hi ho => (s.getLsbD_readWord .test i hi (hopen ▸ ho)).trans (by rw [hknown])
      refine ⟨?_, ?_, ?_⟩ <;> rw [hbit _ (by decide) (by decide)] <;> simp [testWord, getElem_flag]

/-- Settles O15: CMDREQ at any time, and the other registers while the interface is idle, whole or under the mask of their defined
bits. -/
theorem rdInterface : Obligations.RdInterface := by
  unfold Obligations.RdInterface
  intro s k hclk hrst
  have hread (x : IfReg) := exec_readOp_keeps (State.admitted_iff.2 ⟨hclk, hrst⟩) (r := .iface k x) nofun
  have hwhole (x : IfReg) (hx : reservedBits (.iface k x) = 0#16) : ∃ w t, exec (readOp (.iface k x)) s = .next t ∧
      Safety.ReadGave s s.block w t ∧ ((s.block.iface k).busy = false → w = (s.block.iface k).stored x) := by
    obtain ⟨t, ht, hgave⟩ := hread x
    exact ⟨_, t, ht, hgave, fun hidle => State.readWord_of_idle hidle hx⟩
  have hmasked (x : IfReg) (m : Word) (hm : reservedBits (.iface k x) &&& m = 0#16) : ∃ w t, exec (readOp (.iface k x)) s = .next t ∧
      Safety.ReadGave s s.block w t ∧ ((s.block.iface k).busy = false → w &&& m = (s.block.iface k).stored x &&& m) := by
    obtain ⟨t, ht, hgave⟩ := hread x
    refine ⟨_, t, ht, hgave, fun hidle => ?_⟩
    rw [s.readWord_and _ ((congrArg (· &&& m) (Block.openBits_of_idle hidle x)).trans hm), Block.known_of_idle hidle]
  refine ⟨?cmdreq, ?cmdmsk, hwhole .msk1 rfl, hmasked .msk2 _ (by simp [reservedBits]), hwhole .arb1 rfl, hwhole .arb2 rfl,
    hmasked .mctrl _ (by simp [reservedBits]), hwhole .da1 rfl, hwhole .da2 rfl, hwhole .db1 rfl, hwhole .db2 rfl⟩
  case cmdreq =>
    obtain ⟨t, ht, hgave⟩ := hread .cmdreq
    have hopen := s.block.openBits_cmdreq k
    refine ⟨_, t, ht, hgave, ?_, ?_⟩
    · rw [s.getLsbD_readWord _ 15 (by decide) (by rw [hopen]; rfl), Block.known_cmdreq]
      simp [cmdreqWord, getElem_flag, getElem_field]
    · rw [s.readWord_field _ 0 6 (by decide) (by rw [hopen]; rfl), Block.known_cmdreq]
      apply BitVec.eq_of_getLsbD_eq
      intro i hi
      interval_cases i <;> simp [cmdreqWord, getElem_flag, getElem_field]
  case cmdmsk =>
    obtain ⟨t, ht, hgave⟩ := hread .cmdmsk
    refine ⟨_, t, ht, hgave, fun hidle => ?_⟩
    rw [s.readWord_field _ 0 8 (by decide) (by simp [Block.openBits_of_idle hidle, reservedBits]), Block.known_of_idle hidle]
    exact low_byte _

end Sys2Proof.Machine

/-! SUPPORT. Register writes (R143 to R147, R150 to R153): an admitted write that is stored, and one that is a recorded fault. -/

namespace Sys2Proof.Machine

/-! ### The two outcomes of an admitted write -/

/-- An admitted write that is stored changes the block alone (R141). -/
theorem exec_writeOp_stored {s : State} (ha : s.admitted = true) {r : Reg} {v : Word} {i : Instr} {b : Block}
    (hi : writeOp r v = some i) (hb : s.block.writeReg r v = .stored b) : exec i s = .next (s.withBlock b) :=
  (exec_writeOp hi s).trans (busWrite_stored ha hb)

/-- Recording a fault changes the marks alone (R262, R264). -/
theorem State.recordFault_records (s : State) (f : BusFault) : Safety.Records s f (s.recordFault f) :=
  ⟨s.mem_recordFault f, s.recordFault_rest f⟩

/-- An admitted write that is a fault records it and changes nothing else (R264). -/
theorem exec_writeOp_fault {s : State} (ha : s.admitted = true) {r : Reg} {v : Word} {i : Instr} {f : BusFault}
    (hi : writeOp r v = some i) (hf : s.block.writeReg r v = .fault f) : ∃ t, exec i s = .next t ∧ Safety.Records s f t :=
  ⟨_, (exec_writeOp hi s).trans (busWrite_fault ha hf), s.recordFault_records f⟩

/-! ### The protected registers (R144 to R146) -/

theorem Block.writeReg_bt_stored {b : Block} (hinit : b.cntl.init = true) (hcce : b.cntl.cce = true) (v : Word) :
    b.writeReg .bt v = .stored { b with bt := v.extractLsb' 0 15 } := by
  simp [Block.writeReg, Block.writeBt, hinit, hcce]

theorem Block.writeReg_bt_fault {b : Block} (h : b.cntl.init = false ∨ b.cntl.cce = false) (v : Word) :
    b.writeReg .bt v = .fault (.protectedWrite .bt v) := by
  rcases h with h | h <;> simp [Block.writeReg, Block.writeBt, h]

theorem Block.writeReg_clkdiv_stored {b : Block} (hinit : b.cntl.init = true) (v : Word) :
    b.writeReg .clkdiv v = .stored { b with clkdiv := v } := if_pos hinit

theorem Block.writeReg_clkdiv_fault {b : Block} (hinit : b.cntl.init = false) (v : Word) :
    b.writeReg .clkdiv v = .fault (.protectedWrite .clkdiv v) := if_neg (Bool.eq_false_iff.1 hinit)

theorem Block.writeReg_test_protected {b : Block} (htest : b.cntl.test = false) (v : Word) :
    b.writeReg .test v = .fault (.protectedWrite .test v) := by
  simp [Block.writeReg, Block.writeTest, htest]

/-- TX, bits 6:5 of TEST, is 0 when both its bits are (R39). -/
theorem txBits_eq_zero_iff (v : Word) : v.extractLsb' 5 2 = 0#2 ↔ v.getLsbD 5 = false ∧ v.getLsbD 6 = false := by
  constructor
  · intro h
    have hbit : ∀ i, i < 2 → v.getLsbD (5 + i) = false := fun i hi => by
      have := congrArg (fun w => w.getLsbD i) h
      simpa [hi] using this
    exact ⟨hbit 0 (by decide), hbit 1 (by decide)⟩
  · rintro ⟨h5, h6⟩
    apply BitVec.eq_of_getLsbD_eq
    intro i hi
    interval_cases i
    · simpa using h5
    · simpa using h6

/-- With CNTL.TEST set, a write of TEST that sets BASIC or TX is not modelled, and any other is stored (R146). -/
theorem Block.writeReg_test {b : Block} (htest : b.cntl.test = true) (v : Word) :
    b.writeReg .test v = if v.getLsbD 2 = true ∨ v.extractLsb' 5 2 ≠ 0#2 then .fault (.unmodelledTest v)
      else .stored { b with test := { lback := v.getLsbD 4, silent := v.getLsbD 3 } } := by
  have hbits : (v.getLsbD 2 || v.getLsbD 6 || v.getLsbD 5) = true ↔ v.getLsbD 2 = true ∨ v.extractLsb' 5 2 ≠ 0#2 := by
    rw [Ne, txBits_eq_zero_iff]
    cases v.getLsbD 2 <;> cases v.getLsbD 6 <;> cases v.getLsbD 5 <;> decide
  simp only [Block.writeReg, Block.writeTest, htest, hbits, Bool.not_true, Bool.false_eq_true, if_false]

/-! ### The interfaces' registers (R150, R152, R153) -/

/-- The write row of CMDREQ of either interface. -/
theorem writeOp_cmdreq {k : IfId} {v : Word} {i : Instr} (h : k = .if1 ∧ i = .wrIf1Cmdreq v ∨ k = .if2 ∧ i = .wrIf2Cmdreq v) :
    writeOp (.iface k .cmdreq) v = some i := by
  rcases h with ⟨rfl, rfl⟩ | ⟨rfl, rfl⟩ <;> rfl

/-- Every interface register has a write row. -/
theorem writeOp_iface (k : IfId) (x : IfReg) (v : Word) : ∃ i, writeOp (.iface k x) v = some i := by
  rw [← Option.ne_none_iff_exists', ne_eq, writeOp_eq_none]
  exact Bool.false_ne_true

/-- While a transfer is in flight a write of any register of its interface is a fault (R150, R152, R153, R265). -/
theorem Block.writeReg_busy {b : Block} {k : IfId} (h : (b.iface k).busy = true) (x : IfReg) (v : Word) :
    b.writeReg (.iface k x) v = .fault (.ifBusy k x) := if_pos h

/-- No slot has the number 0 or one above 32 (R2, R150). -/
theorem slotOf_none {x : Nat} (h : x = 0 ∨ 32 < x) : slotOfNumber x = none := dif_neg (by omega)

/-- A write of an idle interface's CMDREQ without a slot's number is a fault (R150). -/
theorem Block.writeReg_badMsgnum {b : Block} {k : IfId} {v : Word} (hb : (b.iface k).busy = false)
    (hv : (v.extractLsb' 0 6).toNat = 0 ∨ 32 < (v.extractLsb' 0 6).toNat) :
    b.writeReg (.iface k .cmdreq) v = .fault (.badMsgnum k (v.extractLsb' 0 6)) := by
  rw [Block.writeReg, Block.writeIface, hb, if_neg (by simp)]
  simp only [slotOf_none hv]

/-! ### The obligations -/

/-- Settles O17, by INIT as written and as stored before. -/
theorem wrCntl : Obligations.WrCntl := by
  unfold Obligations.WrCntl
  intro s v hclk hrst
  refine ⟨s.block.writeCntl v, (s.block.writeCntl v).cntl,
    exec_writeOp_stored (State.admitted_iff.2 ⟨hclk, hrst⟩) (r := .cntl) rfl rfl, rfl, rfl, rfl, rfl, rfl, rfl, rfl, ?_, ?_, ?_⟩
  · intro hv
    simp only [Block.writeCntl, hv, if_true, and_self]
  all_goals
    intro hv hinit
    simp only [Block.writeCntl, hv, hinit, Bool.false_eq_true, if_false, if_true, and_self]

/-- Settles O18: the write is stored at any time. -/
theorem wrStat : Obligations.WrStat := by
  unfold Obligations.WrStat
  intro s v hclk hrst
  exact ⟨_, exec_writeOp_stored (State.admitted_iff.2 ⟨hclk, hrst⟩) (r := .stat) rfl rfl, rfl, rfl, rfl, rfl, rfl, rfl⟩

/-- Settles O19, from each register's stored and faulted write. -/
theorem protectedWrites : Obligations.ProtectedWrites := by
  unfold Obligations.ProtectedWrites
  intro s v hclk hrst
  have hadm : s.admitted = true := State.admitted_iff.2 ⟨hclk, hrst⟩
  refine ⟨fun hinit hcce => exec_writeOp_stored hadm rfl (Block.writeReg_bt_stored hinit hcce v),
    fun h => exec_writeOp_fault hadm rfl (Block.writeReg_bt_fault h v),
    fun hinit => exec_writeOp_stored hadm rfl (Block.writeReg_clkdiv_stored hinit v),
    fun hinit => exec_writeOp_fault hadm rfl (Block.writeReg_clkdiv_fault hinit v),
    fun htest => exec_writeOp_fault hadm rfl (Block.writeReg_test_protected htest v),
    fun htest hv => exec_writeOp_fault hadm rfl ((Block.writeReg_test htest v).trans (if_pos hv)),
    fun htest hbasic htx => exec_writeOp_stored hadm rfl ((Block.writeReg_test htest v).trans (if_neg ?_))⟩
  rintro (h | h)
  · exact absurd h (Bool.eq_false_iff.1 hbasic)
  · exact h htx

/-- Settles O20, from the three outcomes of a write of CMDREQ. -/
theorem wrCmdreq : Obligations.WrCmdreq := by
  unfold Obligations.WrCmdreq
  intro s k v i hclk hrst hi
  have hadm : s.admitted = true := State.admitted_iff.2 ⟨hclk, hrst⟩
  have hop := writeOp_cmdreq hi
  exact ⟨fun hbusy => exec_writeOp_fault hadm hop (Block.writeReg_busy hbusy _ v),
    fun hidle hv => exec_writeOp_fault hadm hop (Block.writeReg_badMsgnum hidle hv),
    fun n hidle hv => exec_writeOp_stored hadm hop (Block.writeReg_cmdreq hidle (slotOf_some hv))⟩

/-- Settles O21: a fault while busy, and each register's stored value while idle. -/
theorem wrStaging : Obligations.WrStaging := by
  unfold Obligations.WrStaging
  intro s k v hclk hrst
  have hadm : s.admitted = true := State.admitted_iff.2 ⟨hclk, hrst⟩
  refine ⟨fun x i _ hi hbusy => exec_writeOp_fault hadm hi (Block.writeReg_busy hbusy x v), fun hidle => ?_⟩
  have hgives (x : IfReg) (hx : x ≠ .cmdreq) : ∃ i, writeOp (.iface k x) v = some i ∧
      exec i s = .next (s.withBlock (s.block.setIface k ((s.block.iface k).store x v))) := by
    obtain ⟨i, hi⟩ := writeOp_iface k x v
    exact ⟨i, hi, exec_writeOp_stored hadm hi (Block.writeReg_staging hidle x hx v)⟩
  exact ⟨hgives .cmdmsk nofun, hgives .msk1 nofun, hgives .msk2 nofun, hgives .arb1 nofun, hgives .arb2 nofun, hgives .mctrl nofun,
    hgives .da1 nofun, hgives .da2 nofun, hgives .db1 nofun, hgives .db2 nofun⟩

/-- Settles O22: a stored write has the frame of its register, and a fault changes the marks alone. -/
theorem writeFrame : Obligations.WriteFrame := by
  unfold Obligations.WriteFrame
  intro r v i s t hi h
  rw [exec_writeOp hi] at h
  obtain ⟨-, ⟨b, hb, rfl⟩ | ⟨f, -, rfl⟩⟩ := busWrite_next h
  case inl =>
    obtain ⟨hobjs, hec, hstatInt, hcntl, hstat, hbt, hclkdiv, htest, hiface, hbusy⟩ := Block.writeReg_frame hb
    exact ⟨rfl, hobjs, hec, hstatInt, hcntl, hstat, hbt, hclkdiv, htest, hiface, hbusy, fun _ hg => hg, fun hne => absurd rfl hne⟩
  case inr =>
    have hblock : (s.recordFault f).block = s.block := s.recordFault_block f
    have hrest : ({ s.recordFault f with block := s.block, faults := s.faults } : State) = s := by
      rw [← hblock]
      exact s.recordFault_rest f
    rw [hblock]
    exact ⟨hrest, rfl, rfl, rfl, fun _ => ⟨rfl, rfl⟩, fun _ => rfl, fun _ => rfl, fun _ => rfl, fun _ => rfl, fun _ _ => rfl,
      fun _ _ => rfl, fun g hg => (s.mem_recordFault f g).2 (.inl hg), fun _ => rfl⟩

end Sys2Proof.Machine

/-! SUPPORT. Transfers (R160 to R169): the fields that a read transfer loads from the object's words. -/

namespace Sys2Proof.Machine

/-! ### The fields of an object's words (R27 to R29) -/

theorem objMsk2_fields (o : Obj) : (objMsk2 o).extractLsb' 0 13 = o.msk.extractLsb' 16 13 ∧
    (objMsk2 o).getLsbD 15 = o.mxtd ∧ (objMsk2 o).getLsbD 14 = o.mdir := by
  refine ⟨?_, ?_, ?_⟩
  · apply BitVec.eq_of_getLsbD_eq
    intro i hi
    interval_cases i <;> simp [objMsk2, getElem_flag, getElem_field]
  all_goals simp [objMsk2, getElem_flag, getElem_field]

theorem objArb2_fields (o : Obj) : (objArb2 o).extractLsb' 0 13 = o.id.extractLsb' 16 13 ∧
    (objArb2 o).getLsbD 15 = o.msgval ∧ (objArb2 o).getLsbD 14 = o.xtd ∧ (objArb2 o).getLsbD 13 = o.dir := by
  refine ⟨?_, ?_, ?_, ?_⟩
  · apply BitVec.eq_of_getLsbD_eq
    intro i hi
    interval_cases i <;> simp [objArb2, getElem_flag, getElem_field]
  all_goals simp [objArb2, getElem_flag, getElem_field]

theorem objMctrl_fields (o : Obj) : (objMctrl o).getLsbD 15 = o.newdat ∧ (objMctrl o).getLsbD 14 = o.msglst ∧
    (objMctrl o).getLsbD 13 = o.intpnd ∧ (objMctrl o).getLsbD 12 = o.umask ∧ (objMctrl o).getLsbD 11 = o.txie ∧
    (objMctrl o).getLsbD 10 = o.rxie ∧ (objMctrl o).getLsbD 9 = o.rmten ∧ (objMctrl o).getLsbD 8 = o.txrqst ∧
    (objMctrl o).getLsbD 7 = o.eob ∧ (objMctrl o).extractLsb' 4 3 = 0#3 ∧ (objMctrl o).extractLsb' 0 4 = o.dlc := by
  refine ⟨?_, ?_, ?_, ?_, ?_, ?_, ?_, ?_, ?_, ?reserved, ?dlc⟩
  case reserved | dlc =>
    apply BitVec.eq_of_getLsbD_eq
    intro i hi
    interval_cases i <;> simp [objMctrl, getElem_flag, getElem_field]
  all_goals simp [objMctrl, getElem_flag, getElem_field]

/-! ### The obligations -/

/-- Settles O23: the object is the one of Obj.written, whose fields are known part by part. -/
theorem xferWr : Obligations.XferWr := by
  unfold Obligations.XferWr
  intro s k p hx
  let f := s.block.iface k
  let o := s.block.obj f.slot
  refine ⟨o.written f p, if_pos hx, ?msk, o.written_mxtd f p, o.written_mdir f p, ?id, o.written_msgval f p, o.written_xtd f p,
    o.written_dir f p, o.written_newdat f p, o.written_msglst f p, o.written_intpnd f p, o.written_umask f p, o.written_txie f p,
    o.written_rxie f p, o.written_rmten f p, o.written_txrqst f p, o.written_eob f p, o.written_dlc f p, o.written_data f p⟩
  case msk => rw [Obj.written_msk, apply_ite BitVec.toNat, toNat_join29]
  case id => rw [Obj.written_id, apply_ite BitVec.toNat, toNat_join29]

/-- Settles O24: the interface is the one of Iface.loaded, whose registers are known part by part, and the object's clears are those of
Obj.cleared. -/
theorem xferRd : Obligations.XferRd := by
  unfold Obligations.XferRd
  intro s k p hx
  let f := s.block.iface k
  let o := s.block.obj f.slot
  refine ⟨{ f.loaded o p with busy := false }, ?step, ?latches, fun hm => ?keepsMask, fun hm => ?mask, fun ha => ?keepsArb,
    fun ha => ?arb, fun hc => ?keepsCtrl, fun hc => ?ctrl, ?da1, ?da2, ?db1, ?db2⟩
  case step =>
    rw [← Obj.cleared_eq]
    exact if_pos hx
  case latches =>
    have hslot : (f.loaded o p).slot = f.slot := f.loaded_slot o p
    have hcmd : (f.loaded o p).cmd = f.cmd := f.loaded_cmd o p
    have hmsgnum : (f.loaded o p).msgnum = f.msgnum := f.loaded_msgnum o p
    have hcmdmsk : (f.loaded o p).cmdmsk = f.cmdmsk := f.loaded_cmdmsk o p
    rw [← hslot, ← hcmd, ← hmsgnum, ← hcmdmsk]
  case keepsMask => exact ⟨by simp [hm, f], by simp [hm, f]⟩
  case mask =>
    simp only [Iface.loaded_msk1, Iface.loaded_msk2, hm, if_true]
    exact ⟨rfl, objMsk2_fields o⟩
  case keepsArb => exact ⟨by simp [ha, f], by simp [ha, f]⟩
  case arb =>
    simp only [Iface.loaded_arb1, Iface.loaded_arb2, ha, if_true]
    exact ⟨rfl, objArb2_fields o⟩
  case keepsCtrl => simp [hc, f]
  case ctrl =>
    simp only [Iface.loaded_mctrl, hc, if_true]
    exact objMctrl_fields o
  case da1 | da2 | db1 | db2 =>
    simp only [Iface.loaded_da1, Iface.loaded_da2, Iface.loaded_db1, Iface.loaded_db2, apply_ite BitVec.toNat, toNat_bytePair]
    rfl

end Sys2Proof.Machine

/-! SUPPORT. SPIN and TRANSFER (R170, R171) as chains of turns. -/

namespace Sys2Proof.Machine

/-! ### SPIN (R170) -/

/-- A wait for BUSY that reaches the bound: the call returns Stall (R170, R263). -/
theorem leads_stallBusy {s : State} {c : CtxId} {cs : List Activation} {ts : List Turn} {b : Block} {todo : List Micro} {k : IfId}
    {m : Nat} (hc : s.Runs c) (hs : Safety.Ready s) (hm : s.params.maxSpin = some m) (hb : (b.iface k).busy = true) :
    s.Leads c cs (Safety.hosts (max m 1) ++ ts) b (.spinBusy k 0 :: todo) ts b [.ret .stall] := by
  have hsplit : Safety.hosts (max m 1) ++ ts = Safety.hosts (m - 1) ++ (.host :: ts) := by
    rw [show max m 1 = m - 1 + 1 by omega, hosts_add, List.append_assoc]
    rfl
  have hbound : spinNext s.params.maxSpin false (.spinBusy k (0 + (m - 1) + 1)) (0 + (m - 1) + 1) [.ret .stall] todo =
      [.ret .stall] := by
    simp only [spinNext, hm, Bool.false_eq_true, if_false]
    exact if_pos (by omega)
  rw [hsplit]
  refine (leads_polls hc hs hb (m - 1) 0 fun m' hm' hpos => ?_).trans ?_
  · rw [hm] at hm'
    cases hm'
    omega
  · have hlast := leads_pollBusy (cs := cs) (ts := ts) (todo := todo) (i := 0 + (m - 1)) hc hs hb
    rwa [hbound] at hlast

/-- A call whose plan leads to an action of its own as the schedule ends is still in progress, before that action. -/
theorem State.Leads.inProgress {s : State} {start : State → State} {plan todo : List Micro} {m : Micro} {b : Block}
    (hp : start s = s.startPlan plan) (hm : m.goesOn = true)
    (h : s.Leads s.running (s.ctx s.running).calls s.turns s.block plan [] b (m :: todo)) :
    (runCall start s).block = b ∧
      ((runCall start s).ctx s.running).calls = .proc (m :: todo) :: (s.ctx s.running).calls := by
  obtain ⟨n, w, e⟩ := h s.fresh (s.ctx s.running).rdata
  rw [runCall_plan plan start hp, e, runTurns, State.ctx_withTurns, State.inCall_ctx m hm]
  exact ⟨State.inCall_block, rfl⟩

/-- Settles O32: the polls that fail, and what ends them: an idle interface, the transfer's completion, the bound, or the schedule. -/
theorem spin : Obligations.Spin := by
  unfold Obligations.Spin
  intro s k hs
  have hrun := s.runs_running
  have hplan : startSpin k s = s.startPlan [.spinBusy k 0, .ret .ok] := rfl
  refine ⟨fun ts hidle ht => ?idle, fun j ts hbusy hj ht => ?completes, fun m ts hbusy hm ht => ?stalls,
    fun j hbusy hm ht => ?polling⟩
  case idle => exact State.Leads.returned hplan (ht ▸ State.leads_spinBusy hrun hs hidle)
  case completes =>
    have hpolls := leads_polls (cs := (s.ctx s.running).calls) (ts := .xfer k :: .host :: ts) (todo := [.ret .ok]) hrun hs hbusy j 0
      fun m hm _ => by have := hj m hm; omega
    have hdone := State.leads_spinBusy (cs := (s.ctx s.running).calls) (ts := ts) (todo := [.ret .ok]) (i := 0 + j) hrun hs
      (Block.iface_transferDone_busy s.block k (s.block.iface k).cmd)
    rw [List.append_assoc] at ht
    exact State.Leads.returned hplan (ht ▸ hpolls.trans ((leads_xfer hs rfl hbusy).trans hdone))
  case stalls => exact State.Leads.returned hplan (ht ▸ leads_stallBusy hrun hs hm hbusy)
  case polling =>
    have hpolls := leads_polls (cs := (s.ctx s.running).calls) (ts := []) (todo := [.ret .ok]) hrun hs hbusy j 0
      fun m hm' _ => by rw [hm] at hm'; cases hm'
    rw [List.append_nil, Nat.zero_add, ← ht] at hpolls
    exact ⟨_, rfl, State.Leads.inProgress hplan rfl hpolls⟩

/-! ### TRANSFER (R171) -/

/-- The interface after steps 1 to 3 of transfer(k, n, c): the command written is the one latched (R150, R171). -/
theorem Block.transferred_eq (b : Block) (k : IfId) (m : Slot) (num : BitVec 6) (c : Byte) : b.transferred k m num c =
    (b.setIface k { b.iface k with busy := true, slot := m, cmd := c, cmdmsk := c, msgnum := num }).transferDone k c := rfl

/-- The host context that runs is the same once a fault is recorded. -/
theorem State.running_recordFault (s : State) (f : BusFault) : (s.recordFault f).running = s.running := by
  rw [State.running, State.recordFault_irq, State.running]

/-- transfer(k, n, c) on an idle interface with a bad slot number: the fault is recorded, and the second wait is over at once (R150,
R171, R264). -/
theorem runTurns_transfer_badMsgnum {s : State} {cs : List Activation} {ts : List Turn} {b : Block} {n : Nat} {w : BitVec 32}
    {todo : List Micro} {x : CtxId} (hx : s.Runs x) (hs : Safety.Ready s) {k : IfId} {nw : Word} (c : Byte)
    (hb : (b.iface k).busy = false) (hn : (nw.extractLsb' 0 6).toNat = 0 ∨ 32 < (nw.extractLsb' 0 6).toNat) :
    ∃ n' w', runTurns x cs.length (Safety.hosts 4 ++ ts) (s.inCall x cs b n w (transferPlan k nw c ++ todo)) =
      runTurns x cs.length ts ((s.recordFault (.badMsgnum k (nw.extractLsb' 0 6))).inCall x cs
        (b.setIface k { b.iface k with cmdmsk := c }) n' w' todo) := by
  obtain ⟨hclk, hrst, hr⟩ := hs
  have ha : s.admitted = true := State.admitted_iff.2 ⟨hclk, hrst⟩
  have hidle : ((b.setIface k { b.iface k with cmdmsk := c }).iface k).busy = false := by rw [Block.iface_setIface_same]; exact hb
  have hcmdmsk : b.writeReg (.iface k .cmdmsk) (c.setWidth 16) = .stored (b.setIface k { b.iface k with cmdmsk := c }) := by
    rw [Block.writeReg_staging hb .cmdmsk nofun, Iface.store, low_byte]
  have hcmdreq := Block.writeReg_badMsgnum hidle hn
  generalize (BusFault.badMsgnum k (nw.extractLsb' 0 6)) = f at hcmdreq ⊢
  have hx' : (s.recordFault f).Runs x := by simpa [State.Runs] using hx
  have hr' : (s.recordFault f).refused = none := by rw [State.recordFault_refused, hr]
  have ha' : (s.recordFault f).admitted = true := by simpa [State.admitted] using ha
  simp only [Safety.hosts, List.replicate, transferPlan, List.cons_append, List.nil_append]
  rw [runTurns_spinBusy hx hr ha k 0 hb, runTurns_wr hx hr ha _ _ _ hcmdmsk, runTurns_wr_fault hx hr ha _ _ _ hcmdreq,
    runTurns_spinBusy hx' hr' ha' k 0 hidle]
  exact ⟨_, _, rfl⟩

/-- Settles O33: the whole transfer as a chain, or the run past its fault. -/
theorem transfer : Obligations.Transfer := by
  unfold Obligations.Transfer
  intro s k n c hs hidle
  have hplan : startTransfer k n c s = s.startPlan (transferPlan k n c ++ [.ret .ok]) := rfl
  refine ⟨fun m ts hm ht => ?moves, fun ts hn ht => ?faults⟩
  case moves =>
    rw [← Block.transferred_eq]
    exact State.Leads.returned hplan (ht ▸ State.leads_transfer s.runs_running hs hidle (slotOf_some hm))
  case faults =>
    obtain ⟨n', w', hrun⟩ := runTurns_transfer_badMsgnum (cs := (s.ctx s.running).calls) (ts := ts) (n := s.fresh)
      (w := (s.ctx s.running).rdata) (todo := [.ret .ok]) s.runs_running hs c hidle hn
    rw [← ht, ← runCall_plan _ _ hplan, runTurns_ret] at hrun
    refine ⟨_, _, congrArg Host.Outcome.next hrun, s.recordFault_records _, n', w', ?_⟩
    rw [State.running_recordFault, State.ctx_recordFault]
    rfl

end Sys2Proof.Machine

/-! SUPPORT. The filter calls (42_filter.md): the words of PACK_FILTER, and INSTALL_FILTER as a chain of turns: the writes for its slot
(R193 steps 2 to 5), before them the scan over MSGV1 and MSGV2 when no slot is given (R193 step 1). -/

namespace Sys2Proof.Machine

/-! ### PACK_FILTER (R190) -/

/-- A filter call whose identifier and mask its format has room for has no bad operand (R192). -/
theorem badFilterOperand_eq_none {id mask : Nat} {fmt : Fmt} (hid : id ≤ fmt.maxId) (hmask : mask ≤ fmt.maxId) :
    badFilterOperand id mask fmt = none := by
  rw [badFilterOperand, if_neg (Nat.not_lt.2 hid), if_neg (Nat.not_lt.2 hmask)]

/-- PACK_FILTER within its domain returns the four words at once. -/
theorem exec_packFilter (s : State) {id mask : Nat} {fmt : Fmt} (hid : id ≤ fmt.maxId) (hmask : mask ≤ fmt.maxId) :
    exec (.packFilter id mask fmt) s = .next
      (s.returnCall (.filterWords (filterMsk1 mask fmt) (filterMsk2 mask fmt) (packArb1 id fmt) (filterArb2 id fmt))) := by
  have hstart : startPackFilter id mask fmt s =
      s.returnCall (.filterWords (filterMsk1 mask fmt) (filterMsk2 mask fmt) (packArb1 id fmt) (filterArb2 id fmt)) := by
    rw [startPackFilter, badFilterOperand_eq_none hid hmask]
  exact congrArg Host.Outcome.next hstart

/-- MSK1 of a filter as a number: it is made of the mask as ARB1 is of the identifier (R190). -/
theorem toNat_filterMsk1 (mask : Nat) (fmt : Fmt) : (filterMsk1 mask fmt).toNat = if fmt = .ext then mask % 65536 else 0 :=
  toNat_packArb1 mask fmt

/-- Settles O28: the words of either format as numbers. -/
theorem packFilter : Obligations.PackFilter := by
  unfold Obligations.PackFilter
  refine fun s id mask => ⟨fun hid hmask => ⟨_, _, _, _, exec_packFilter s (fmt := .ext) hid hmask, ?_⟩,
    fun hid hmask => ⟨_, _, _, _, exec_packFilter s (fmt := .std) hid hmask, ?_⟩⟩
  · exact ⟨toNat_packArb1 id .ext, (toNat_filterArb2 (fmt := .ext) hid).trans (Nat.add_assoc _ _ _).symm,
      toNat_filterMsk1 mask .ext, toNat_filterMsk2 (fmt := .ext) hmask⟩
  · exact ⟨toNat_packArb1 id .std, toNat_filterArb2 (fmt := .std) hid, toNat_filterMsk1 mask .std,
      toNat_filterMsk2 (fmt := .std) hmask⟩

/-! ### INSTALL_FILTER (R193) -/

section
variable {s : State} {c : CtxId} {cs : List Activation} {ts : List Turn} {b : Block} {id mask : Nat} {fmt : Fmt} {n : Slot}

/-- A given slot is written at once: there is no scan. -/
theorem startInstallFilter_slot (s : State) (n : Slot) (hid : id ≤ fmt.maxId) (hmask : mask ≤ fmt.maxId) :
    startInstallFilter id mask fmt (slotNumber n) s = s.startPlan (filterWritePlan id mask fmt (slotNumber n)) := by
  have hslot : slotNumber n ≤ 32 := n.isLt
  have hne : slotNumber n ≠ 0 := Nat.succ_ne_zero n.val
  rw [startInstallFilter_eq hid hmask hslot, installFilterPlan, if_neg hne]

/-- A bitmap of the valid slots as a procedure uses it: it has no open bits (R41). -/
theorem Block.usedWord_msgv (b : Block) (free : Word) (h : Half) : b.usedWord free (.msgv h) = b.bitmap h (·.msgval) :=
  b.usedWord_closed free (.msgv h) rfl rfl

/-- The scan's two reads as a chain: they leave the block, and l is what follows the two bitmaps (R193 step 1). -/
theorem leads_filterScan {l : List Micro} (hc : s.Runs c) (hs : Safety.Ready s)
    (hl : ∀ full, (Cont.filterHi (b.bitmap .lo (·.msgval)) id mask fmt).next (b.bitmap .hi (·.msgval)) full = l) :
    s.Leads c cs (.host :: .host :: ts) b (installFilterPlan id mask fmt 0) ts b l := by
  have hlo : s.Leads c cs (.host :: .host :: ts) b (installFilterPlan id mask fmt 0) (.host :: ts) b
      [.rd (.msgv .hi) (.filterHi (b.bitmap .lo (·.msgval)) id mask fmt)] :=
    State.leads_rd hc hs (l := [.rd (.msgv .hi) (.filterHi (b.bitmap .lo (·.msgval)) id mask fmt)])
      fun free => by rw [Cont.next, Block.usedWord_msgv]
  have hhi : s.Leads c cs (.host :: ts) b [.rd (.msgv .hi) (.filterHi (b.bitmap .lo (·.msgval)) id mask fmt)] ts b (l ++ []) :=
    State.leads_rd hc hs fun free => by rw [Block.usedWord_msgv, hl]
  rw [List.append_nil] at hhi
  exact hlo.trans hhi

/-- The scan takes the least free slot of 1..31. -/
theorem leads_filterScan_free (hc : s.Runs c) (hs : Safety.Ready s) (hn : n.val ≤ 30) (hfree : (b.obj n).msgval = false)
    (hleast : ∀ m : Slot, m < n → (b.obj m).msgval = true) :
    s.Leads c cs (.host :: .host :: ts) b (installFilterPlan id mask fmt 0) ts b (filterWritePlan id mask fmt (slotNumber n)) := by
  have hscan : leastBit (pairMap (b.bitmap .hi (·.msgval)) (b.bitmap .lo (·.msgval))) false 0 31 = some n.val :=
    leastBit_slot b (·.msgval) false n hn hfree fun m hm => ne_false_of_eq_true (hleast m hm)
  exact leads_filterScan hc hs fun full => by rw [Cont.next, hscan]; rfl

/-- With slots 1..31 all valid the scan ends the call. -/
theorem leads_filterScan_full (hc : s.Runs c) (hs : Safety.Ready s) (hfull : ∀ m : Slot, m.val ≤ 30 → (b.obj m).msgval = true) :
    s.Leads c cs (.host :: .host :: ts) b (installFilterPlan id mask fmt 0) ts b [.ret (.fail .noFreeFilterSlot)] := by
  have hscan : leastBit (pairMap (b.bitmap .hi (·.msgval)) (b.bitmap .lo (·.msgval))) false 0 31 = none :=
    leastBit_noslot b (·.msgval) false fun m hm => ne_false_of_eq_true (hfull m hm)
  exact leads_filterScan hc hs fun full => by rw [Cont.next, hscan]

end

/-- Settles O38: the writes for the slot lead to the return, and leave the object that leads_filterWrite describes. -/
theorem installFilter : Obligations.InstallFilter := by
  unfold Obligations.InstallFilter
  intro s id mask fmt n ts hs hid hmask hidle ht
  obtain ⟨b, o, hwrites, hobj⟩ := leads_filterWrite s.block (n := n) hid hmask hidle
  obtain ⟨t, hexec, hret⟩ := State.Leads.returned (startInstallFilter_slot s n hid hmask) (ht ▸ hwrites s.runs_running hs)
  exact ⟨t, b, o, hexec, hret, hobj⟩

/-- Settles O39: the scan leads to the writes for the least free slot, the same as those of the call that is given the slot, or to the
return. -/
theorem installFilterScan : Obligations.InstallFilterScan := by
  unfold Obligations.InstallFilterScan
  intro s id mask fmt hs hid hmask
  have hrun := s.runs_running
  have hplan : startInstallFilter id mask fmt 0 s = s.startPlan (installFilterPlan id mask fmt 0) :=
    startInstallFilter_eq hid hmask (Nat.zero_le 32)
  refine ⟨fun n ts hn hfree hleast hidle ht => ?free, fun ts hfull ht => ?full⟩
  case free =>
    have hturns : s.turns = .host :: .host :: (Safety.hosts 5 ++ Safety.transferTurns .if1 ++ ts) := ht
    let v : State := { s with turns := Safety.hosts 5 ++ Safety.transferTurns .if1 ++ ts }
    have hv : { s with turns := s.turns.drop 2 } = v := by rw [hturns]; rfl
    obtain ⟨b, -, hwrites, -⟩ := leads_filterWrite s.block (n := n) hid hmask hidle
    obtain ⟨t, hexec, hret⟩ := State.Leads.returned hplan
      (hturns ▸ (leads_filterScan_free hrun hs hn hfree hleast).trans (hwrites hrun hs))
    obtain ⟨u, hexecSlot, _, _, hu⟩ :=
      State.Leads.returned (startInstallFilter_slot v n hid hmask) (hwrites (ts := ts) v.runs_running hs)
    exact ⟨t, u, b, hexec, hret, hv ▸ hexecSlot, by rw [hu, State.setCtx_block]⟩
  case full => exact State.Leads.returned hplan (ht ▸ leads_filterScan_full hrun hs hfull)

end Sys2Proof.Machine

/-! SUPPORT. The transmit calls (43_transmit.md): the words of PACK_TX, the read-modify-writes of STAT and CNTL, the calls that return
what one read gives, and SEND as a chain of turns: ENABLE, the read of slot 32's pending bit, and the writes of the frame (R204). -/

namespace Sys2Proof.Machine

/-! ### PACK_TX (R200, R201) -/

/-- A frame whose identifier its format has room for, of at most 8 bytes, has no bad operand (R202). -/
theorem badFrameOperand_eq_none {f : Frame} (hid : f.id ≤ f.fmt.maxId) (hlen : f.len ≤ 8) : badFrameOperand f = none := by
  rw [badFrameOperand, if_neg (Nat.not_lt.2 hid), if_neg (Nat.not_lt.2 hlen)]

/-- PACK_TX within its domain returns the nine words at once. -/
theorem exec_packTx (s : State) {f : Frame} (hid : f.id ≤ f.fmt.maxId) (hlen : f.len ≤ 8) :
    exec (.packTx f) s = .next (s.returnCall (.txWords (packTx f).msk1 (packTx f).msk2 (packTx f).arb1 (packTx f).arb2
      (packTx f).mctrl (packTx f).da1 (packTx f).da2 (packTx f).db1 (packTx f).db2)) := by
  have hstart : startPackTx f s = s.returnCall (.txWords (packTx f).msk1 (packTx f).msk2 (packTx f).arb1 (packTx f).arb2
      (packTx f).mctrl (packTx f).da1 (packTx f).da2 (packTx f).db1 (packTx f).db2) := by
    rw [startPackTx, badFrameOperand_eq_none hid hlen]
  exact congrArg Host.Outcome.next hstart

/-- Settles O29: the arbitration and mask words for either format, the length in MCTRL, and the bytes pair by pair.
(The name packTx alone is the packing function's.) -/
theorem Transmit.packTx : Obligations.PackTx := by
  unfold Obligations.PackTx
  intro s f hid hlen
  have hne : f.fmt = .std → ¬ f.fmt = .ext := fun hstd => hstd ▸ nofun
  refine ⟨_, _, _, _, _, _, _, _, _, exec_packTx s hid hlen, fun hext => ⟨?arb1Ext, ?arb2Ext, rfl, ?msk2Ext⟩,
    fun hstd => ⟨?arb1Std, ?arb2Std, rfl, ?msk2Std⟩, toNat_txMctrl hlen,
    toNat_bytePair _ _, toNat_bytePair _ _, toNat_bytePair _ _, toNat_bytePair _ _⟩
  case arb1Ext => exact (toNat_packArb1 f.id f.fmt).trans (if_pos hext)
  case arb2Ext => exact (toNat_txArb2 f hid).trans (by rw [if_pos hext, if_pos hext])
  case msk2Ext => exact congrArg (fun fmt => (txMsk2 fmt).toNat) hext
  case arb1Std => exact (toNat_packArb1 f.id f.fmt).trans (if_neg (hne hstd))
  case arb2Std => exact (toNat_txArb2 f hid).trans (by rw [if_neg (hne hstd), if_neg (hne hstd), Nat.add_zero])
  case msk2Std => exact congrArg (fun fmt => (txMsk2 fmt).toNat) hstd

/-! ### The read-modify-writes (R203, R218, R230) -/

/-- Settles O34: each plan is a chain of the two turns that ends in the return, and the write's value is the one the rule gives. -/
theorem readModifyWrites : Obligations.ReadModifyWrites := by
  unfold Obligations.ReadModifyWrites
  intro s ts hs ht
  have hrun := s.runs_running
  refine ⟨?clrTxok, ?clrRxok, fun m => ?setCntl, fun m => ?clrCntl⟩
  case clrTxok => exact State.Leads.returned (start := startClrTxok) rfl (ht ▸ leads_clrTxok hrun hs)
  case clrRxok => exact State.Leads.returned (start := startClrRxok) rfl (ht ▸ leads_clrRxok hrun hs)
  case setCntl => exact State.Leads.returned (start := startSetCntl m) rfl (ht ▸ leads_setCntl hrun hs m (cntl_set s.block m))
  case clrCntl => exact State.Leads.returned (start := startClrCntl m) rfl (ht ▸ leads_clrCntl hrun hs m (cntl_clr s.block m))

/-! ### The calls of one read (R206, R222) -/

/-- A call whose plan is one read, not of STAT, and that returns r whatever the read's open bits: it has returned after one turn, with the
block as it was. -/
theorem returned_of_read {s : State} {start : State → State} {ts : List Turn} {q : Reg} {k : Cont} {r : Ret} (hs : Safety.Ready s)
    (ht : s.turns = .host :: ts) (hp : start s = s.startPlan [.rd q k]) (hq : q ≠ .stat)
    (hr : ∀ free, k.next (s.block.usedWord free q) (s.block.readWord free q) = [.ret r]) :
    ∃ t, Host.Outcome.next (runCall start s) = (.next t : Host.Outcome State Fault Refusal) ∧ Safety.Returned s s.block ts r t := by
  have hread := State.leads_rd (cs := (s.ctx s.running).calls) (ts := ts) (todo := []) s.runs_running hs hr
  rw [s.block.afterRead_of_ne_stat hq, ← ht] at hread
  exact State.Leads.returned hp hread

/-- The pending bit of slot 32 as a procedure reads it: bit 15 of TXREQ2 (R41). -/
theorem Block.usedWord_txreq_slot32 (b : Block) (free : Word) : (b.usedWord free (.txreq .hi)).getLsbD 15 = (b.obj 31).txrqst := by
  rw [b.usedWord_closed free (.txreq .hi) rfl rfl]
  exact b.bitmap_hi (·.txrqst) 31 (by decide)

/-- With one transmit slot, its bit of TXREQ2 decides between busy and idle (R206). -/
theorem txStateOf_txMsgObjCount (w : Word) : txStateOf w txMsgObjCount = if w.getLsbD 15 then .busy else .idle := by
  have hcount : txPendingCount w txMsgObjCount = if w.getLsbD 15 then 1 else 0 := rfl
  rw [txStateOf, hcount]
  cases w.getLsbD 15 <;> rfl

/-- EC as a procedure uses it: it has no open bits (R35). -/
theorem Block.usedWord_ec (b : Block) (free : Word) : b.usedWord free .ec = b.ec := b.usedWord_closed free .ec rfl rfl

/-- EC[14:8], the receive error count, as a number (R222). -/
theorem toNat_rxErrCount (w : Word) : (field 0 (w.extractLsb' 8 7) : Byte).toNat = w.toNat / 256 % 128 := by
  simp only [field, BitVec.shiftLeft_zero, BitVec.toNat_setWidth, BitVec.extractLsb'_toNat, Nat.shiftRight_eq_div_pow]
  omega

/-- EC[7:0], the transmit error count, as a number (R222). -/
theorem toNat_txErrCount (w : Word) : (w.extractLsb' 0 8 : Byte).toNat = w.toNat % 256 := by
  rw [BitVec.extractLsb'_toNat, Nat.shiftRight_zero]

/-- Settles O41: each call is one read, and its result a field of the word read. -/
theorem statusCalls : Obligations.StatusCalls := by
  unfold Obligations.StatusCalls
  intro s ts hs ht
  refine ⟨?txStatus, ?rxErrCount, ?txErrCount⟩
  case txStatus =>
    exact returned_of_read (start := startTxStatus) hs ht rfl nofun fun free => by
      rw [Cont.next, txStateOf_txMsgObjCount, Block.usedWord_txreq_slot32]
  case rxErrCount =>
    obtain ⟨t, hexec, hret⟩ := returned_of_read (start := startRxErrCount) hs ht rfl nofun fun free => by
      rw [Cont.next, Block.usedWord_ec]
    exact ⟨t, _, hexec, hret, toNat_rxErrCount s.block.ec⟩
  case txErrCount =>
    obtain ⟨t, hexec, hret⟩ := returned_of_read (start := startTxErrCount) hs ht rfl nofun fun free => by
      rw [Cont.next, Block.usedWord_ec]
    exact ⟨t, _, hexec, hret, toNat_txErrCount s.block.ec⟩

/-! ### SEND (R204) -/

/-- ENABLE and the read of TXREQ2 as a chain: l is what follows slot 32's pending bit (R204 steps 1 and 2). -/
theorem leads_sendPending {s : State} {c : CtxId} {cs : List Activation} {ts : List Turn} {b : Block} {f : Frame} {l : List Micro}
    (hc : s.Runs c) (hs : Safety.Ready s) (hl : (if (b.obj 31).txrqst then [.ret (.fail .txSlotBusy)] else sendWritePlan f) = l) :
    s.Leads c cs (Safety.enableTurns b ++ .host :: ts) b (sendPlan f) ts (Safety.enabled b) l := by
  have hread : s.Leads c cs (.host :: ts) (Safety.enabled b) [.rd (.txreq .hi) (.sendPending f)] ts (Safety.enabled b) (l ++ []) :=
    State.leads_rd hc hs fun free => by rw [Cont.next, Block.usedWord_txreq_slot32]; exact hl
  rw [List.append_nil] at hread
  exact (leads_enable hc hs ⟨_, _, rfl⟩).trans hread

/-- Settles O40: the pending bit ends the call or leads to the writes that leads_frameWrite describes; or ENABLE stalls before it is
read. -/
theorem send : Obligations.Send := by
  unfold Obligations.Send
  intro s f flags ts hs hid hlen
  have hrun := s.runs_running
  have hplan : startSend f flags s = s.startPlan (sendPlan f) := startSend_eq hid hlen
  refine ⟨fun hbusy ht => ?pending, fun hfree hidle ht => ?sent, fun m hi hm ht => ?stalls⟩
  case pending =>
    have hend := leads_sendPending (f := f) (cs := (s.ctx s.running).calls) (ts := ts) hrun hs (if_pos hbusy)
    exact State.Leads.returned hplan (ht ▸ hend)
  case sent =>
    have hturns : s.turns = Safety.enableTurns s.block ++
        .host :: (Safety.hosts 9 ++ Safety.transferTurns .if1 ++ Safety.hosts 2 ++ ts) := by
      rw [ht]
      simp only [List.append_assoc]
      rfl
    obtain ⟨b, o, hwrites, hobj⟩ := leads_frameWrite (Safety.enabled s.block) hid hlen hidle
    have hwrite := leads_sendPending (f := f) (cs := (s.ctx s.running).calls)
      (ts := Safety.hosts 9 ++ Safety.transferTurns .if1 ++ Safety.hosts 2 ++ ts) hrun hs (if_neg (ne_true_of_eq_false hfree))
    obtain ⟨t, hexec, hret⟩ := State.Leads.returned hplan (hturns ▸ hwrite.trans (hwrites hrun hs))
    exact ⟨t, b, o, hexec, hret, hobj⟩
  case stalls => exact State.Leads.returned hplan (ht ▸ leads_enableStall hrun hs hm hi)

end Sys2Proof.Machine

/-! SUPPORT. The receive calls (44_receive.md): the frame of UNPACK_RX, and RECEIVE as a chain of turns: ENABLE, the scan over ND1 and ND2
when no slot is given (R219 step 2), and the transfer and reads of leads_frameRead. -/

namespace Sys2Proof.Machine

/-! ### RECEIVE of a slot (R219, R221) -/

section
variable {s : State} {c : CtxId} {cs : List Activation} {ts : List Turn} {b b' : Block} {n : Slot} {l : List Micro} {r : Ret}

/-- What a call that returned leaves in its context. -/
theorem ret_of_returned {t : State} (h : Safety.Returned s b ts r t) : (t.ctx s.running).ret = r := by
  obtain ⟨_, _, rfl⟩ := h
  rw [State.ctx_setCtx_same]

/-- What a call that returned leaves of the block. -/
theorem block_of_returned {t : State} (h : Safety.Returned s b ts r t) : t.block = b := by
  obtain ⟨_, _, rfl⟩ := h
  rw [State.setCtx_block]

/-- RECEIVE of a given slot enables the controller and then reads that slot: there is no scan. -/
theorem receivePlan_slot (n : Slot) : receivePlan (slotNumber n) = enablePlan ++ receiveReadPlan (slotNumber n) := by
  have hne : slotNumber n ≠ 0 := Nat.succ_ne_zero n.val
  rw [receivePlan, if_neg hne]

/-- ENABLE before the reads of a given slot, as a chain (R219 step 1). -/
theorem leads_receiveSlot (hc : s.Runs c) (hs : Safety.Ready s)
    (hread : s.Leads c cs (Safety.transferTurns .if2 ++ Safety.hosts 9 ++ ts) (Safety.enabled b) (receiveReadPlan (slotNumber n)) ts b' l) :
    s.Leads c cs (Safety.enableTurns b ++ Safety.transferTurns .if2 ++ Safety.hosts 9 ++ ts) b (receivePlan (slotNumber n)) ts b' l := by
  rw [receivePlan_slot, List.append_assoc, List.append_assoc, ← List.append_assoc (Safety.transferTurns .if2)]
  exact (leads_enable hc hs ⟨_, _, rfl⟩).trans hread

/-- RECEIVE of a given slot returns the frame its object holds, and leaves the block that leads_frameRead describes. -/
theorem exec_receive_slot (n : Slot) (hs : Safety.Ready s) (hidle : s.block.if2.busy = false)
    (ht : s.turns = Safety.enableTurns s.block ++ Safety.transferTurns .if2 ++ Safety.hosts 9 ++ ts) :
    ∃ t b, exec (.receive (slotNumber n)) s = .next t ∧ Safety.Returned s b ts (.frame (frameOf (s.block.obj n))) t ∧
      b.obj n = { s.block.obj n with newdat := false, intpnd := false } ∧ (∀ m, m ≠ n → b.obj m = s.block.obj m) ∧
      b.if2.busy = false ∧ { b with if2 := s.block.if2, objs := s.block.objs } =
        { Safety.enabled s.block with stat := { s.block.stat with rxok := false }, statInt := false } := by
  have hrun := s.runs_running
  obtain ⟨b, hread, hleft⟩ := leads_frameRead (Safety.enabled s.block) n hidle
  obtain ⟨t, hexec, hret⟩ := State.Leads.returned (startReceive_eq n.isLt) (ht ▸ leads_receiveSlot hrun hs (hread hrun hs))
  exact ⟨t, b, hexec, hret, hleft⟩

end

/-- Settles O42: the frame of exec_receive_slot field by field; of any slot argument the plan begins with ENABLE, which may stall. -/
theorem receive : Obligations.Receive := by
  unfold Obligations.Receive
  refine ⟨fun s n ts hs hidle ht => ?read, fun s slot m ts hs hslot hi hm ht => ?stalls⟩
  case read =>
    obtain ⟨t, b, hexec, hret, hleft⟩ := exec_receive_slot n hs hidle ht
    exact ⟨t, b, _, hexec, hret, rfl, rfl, rfl, rfl, rfl, hleft⟩
  case stalls =>
    exact State.Leads.returned (startReceive_eq hslot) (ht ▸ leads_enableStall s.runs_running hs hm hi)

/-! ### RECEIVE without a slot (R219 step 2) -/

section
variable {s : State} {c : CtxId} {cs : List Activation} {ts : List Turn} {b : Block} {n : Slot}

/-- A bitmap of the slots with new data as a procedure uses it: it has no open bits (R41). -/
theorem Block.usedWord_nd (b : Block) (free : Word) (h : Half) : b.usedWord free (.nd h) = b.bitmap h (·.newdat) :=
  b.usedWord_closed free (.nd h) rfl rfl

/-- ENABLE and the scan's two reads as a chain: l is what follows the two bitmaps, which ENABLE leaves. -/
theorem leads_receiveScan {l : List Micro} (hc : s.Runs c) (hs : Safety.Ready s)
    (hl : ∀ full, (Cont.receiveHi (b.bitmap .lo (·.newdat))).next (b.bitmap .hi (·.newdat)) full = l) :
    s.Leads c cs (Safety.enableTurns b ++ Safety.hosts 2 ++ ts) b (receivePlan 0) ts (Safety.enabled b) l := by
  have henable : s.Leads c cs (Safety.enableTurns b ++ (.host :: .host :: ts)) b (receivePlan 0) (.host :: .host :: ts)
      (Safety.enabled b) [.rd (.nd .lo) .receiveLo] := leads_enable hc hs ⟨_, _, rfl⟩
  have hlo : s.Leads c cs (.host :: .host :: ts) (Safety.enabled b) [.rd (.nd .lo) .receiveLo] (.host :: ts) (Safety.enabled b)
      [.rd (.nd .hi) (.receiveHi (b.bitmap .lo (·.newdat)))] :=
    State.leads_rd hc hs (l := [.rd (.nd .hi) (.receiveHi (b.bitmap .lo (·.newdat)))])
      fun free => by rw [Cont.next, Block.usedWord_nd]; rfl
  have hhi : s.Leads c cs (.host :: ts) (Safety.enabled b) [.rd (.nd .hi) (.receiveHi (b.bitmap .lo (·.newdat)))] ts
      (Safety.enabled b) (l ++ []) :=
    State.leads_rd hc hs fun free => by rw [Block.usedWord_nd]; exact hl _
  rw [List.append_nil] at hhi
  rw [List.append_assoc]
  exact (henable.trans hlo).trans hhi

/-- The scan takes the least new slot of 1..31. -/
theorem leads_receiveScan_new (hc : s.Runs c) (hs : Safety.Ready s) (hn : n.val ≤ 30) (hnew : (b.obj n).newdat = true)
    (hleast : ∀ m : Slot, m < n → (b.obj m).newdat = false) :
    s.Leads c cs (Safety.enableTurns b ++ Safety.hosts 2 ++ ts) b (receivePlan 0) ts (Safety.enabled b)
      (receiveReadPlan (slotNumber n)) := by
  have hscan : leastBit (pairMap (b.bitmap .hi (·.newdat)) (b.bitmap .lo (·.newdat))) true 0 31 = some n.val :=
    leastBit_slot b (·.newdat) true n hn hnew fun m hm => ne_true_of_eq_false (hleast m hm)
  exact leads_receiveScan hc hs fun full => by rw [Cont.next, hscan]; rfl

/-- With no new data in slots 1..31 the scan ends the call. -/
theorem leads_receiveScan_none (hc : s.Runs c) (hs : Safety.Ready s) (hnone : ∀ m : Slot, m.val ≤ 30 → (b.obj m).newdat = false) :
    s.Leads c cs (Safety.enableTurns b ++ Safety.hosts 2 ++ ts) b (receivePlan 0) ts (Safety.enabled b) [.ret (.fail .noNewData)] := by
  have hscan : leastBit (pairMap (b.bitmap .hi (·.newdat)) (b.bitmap .lo (·.newdat))) true 0 31 = none :=
    leastBit_noslot b (·.newdat) true fun m hm => ne_true_of_eq_false (hnone m hm)
  exact leads_receiveScan hc hs fun full => by rw [Cont.next, hscan]

end

/-- Settles O43: the scan leads to the reads of the least new slot, the same as those of the call that is given the slot, or to the
return. -/
theorem receiveScan : Obligations.ReceiveScan := by
  unfold Obligations.ReceiveScan
  intro s hs
  have hrun := s.runs_running
  have hplan : startReceive 0 s = s.startPlan (receivePlan 0) := startReceive_eq (Nat.zero_le 32)
  refine ⟨fun n ts hn hnew hleast hidle ht => ?new, fun ts hnone ht => ?none⟩
  case new =>
    have hturns : s.turns = Safety.enableTurns s.block ++ Safety.hosts 2 ++
        (Safety.transferTurns .if2 ++ Safety.hosts 9 ++ ts) := by
      rw [ht]
      simp only [List.append_assoc]
    let v : State := { s with
      turns := Safety.enableTurns s.block ++ Safety.transferTurns .if2 ++ Safety.hosts 9 ++ ts }
    obtain ⟨b, hread, -⟩ := leads_frameRead (Safety.enabled s.block) n hidle
    obtain ⟨t, hexec, hret⟩ := State.Leads.returned hplan
      (hturns ▸ (leads_receiveScan_new hrun hs hn hnew hleast).trans (hread hrun hs))
    obtain ⟨u, hexecSlot, hretSlot⟩ := State.Leads.returned (s := v) (startReceive_eq n.isLt)
      (leads_receiveSlot v.runs_running hs (hread v.runs_running hs))
    exact ⟨t, u, b, _, hexec, hret, hexecSlot, block_of_returned hretSlot, ret_of_returned hretSlot⟩
  case none => exact State.Leads.returned hplan (ht ▸ leads_receiveScan_none hrun hs hnone)

/-! ### What was sent is received (R217) -/

/-- The object that send leaves for f holds the frame f: a standard identifier stands in bits 28:18 (R28, R217). -/
theorem frameOf_sent {o : Obj} {f : Frame} (hid : o.id.toNat = if f.fmt = .ext then f.id else f.id * 262144)
    (hlen : o.dlc.toNat = f.len) (hxtd : o.xtd = decide (f.fmt = .ext)) (hdir : o.dir = decide (f.type = .remote))
    (hdata : o.data = f.data) : frameOf o = f := by
  obtain ⟨id, fmt, type, len, data⟩ := f
  simp only [frameOf, hid, hlen, hxtd, hdir, hdata, Frame.mk.injEq, decide_eq_true_eq, and_true]
  refine ⟨?id, ?fmt, ?type⟩
  case id =>
    split
    · rfl
    · exact Nat.mul_div_cancel id (by decide)
  case fmt => cases fmt <;> rfl
  case type => cases type <;> rfl

/-- Settles O44: the object that SEND leaves holds the frame, in fields that a finished transmission keeps, and RECEIVE returns the frame
the object holds. -/
theorem sendReceive : Obligations.SendReceive := by
  unfold Obligations.SendReceive
  intro s t u f flags ts ts' hs hu hid hlen hfree hidle1 ht hsent hkept hidle2 ht'
  obtain ⟨-, hsend, -⟩ := send s f flags ts hs hid hlen
  obtain ⟨t', b, o, hexec, hret, hobj, hoid, hodlc, hofields, -⟩ := hsend hfree hidle1 ht
  obtain rfl : t = t' := Host.Outcome.next.inj (hsent.symm.trans hexec)
  obtain ⟨pending, flagged, hslot⟩ := hkept
  rw [block_of_returned hret, hobj] at hslot
  have hframe : frameOf (u.block.obj 31) = f := by
    rw [hslot]
    exact frameOf_sent hoid hodlc (congrArg Obj.xtd hofields) (congrArg Obj.dir hofields) (congrArg Obj.data hofields)
  obtain ⟨v, _, hexecRead, hretRead, -⟩ := exec_receive_slot 31 hu hidle2 ht'
  exact ⟨v, hexecRead, hframe ▸ ret_of_returned hretRead⟩

/-! ### UNPACK_RX (R215, R216) -/

/-- An extended identifier of unpack_rx: 13 bits of ARB2 over ARB1. -/
theorem unpackRx_ext {a1 a2 c d1 d2 d3 d4 : Word} (h : a2.getLsbD 14 = true) :
    (unpackRx a1 a2 c d1 d2 d3 d4).fmt = .ext ∧
      (unpackRx a1 a2 c d1 d2 d3 d4).id = a2.toNat % 8192 * 65536 + a1.toNat := by
  refine ⟨if_pos h, (if_pos h).trans ?_⟩
  rw [toNat_join29, BitVec.extractLsb'_toNat, Nat.shiftRight_zero]

/-- A standard identifier of unpack_rx: bits 12:2 of ARB2. -/
theorem unpackRx_std {a1 a2 c d1 d2 d3 d4 : Word} (h : a2.getLsbD 14 = false) :
    (unpackRx a1 a2 c d1 d2 d3 d4).fmt = .std ∧ (unpackRx a1 a2 c d1 d2 d3 d4).id = a2.toNat / 4 % 2048 := by
  have hstd := ne_true_of_eq_false h
  refine ⟨if_neg hstd, (if_neg hstd).trans ?_⟩
  rw [BitVec.extractLsb'_toNat, Nat.shiftRight_eq_div_pow]

/-- The low byte of a word as a number. -/
theorem toNat_lowerByte (w : Word) : (lowerByte w).toNat = w.toNat % 256 := by
  rw [lowerByte, BitVec.extractLsb'_toNat, Nat.shiftRight_zero]

/-- The high byte of a word as a number. -/
theorem toNat_higherByte (w : Word) : (higherByte w).toNat = w.toNat / 256 := by
  rw [higherByte, BitVec.extractLsb'_toNat, Nat.shiftRight_eq_div_pow]
  exact Nat.mod_eq_of_lt (Nat.div_lt_of_lt_mul w.isLt)

/-- Settles O30: the identifier for either format, the type by its bit, the length in MCTRL, and the bytes pair by pair.
(The name unpackRx alone is the unpacking function's.) -/
theorem Receive.unpackRx : Obligations.UnpackRx := by
  unfold Obligations.UnpackRx
  intro s a1 a2 c d1 d2 d3 d4
  refine ⟨Machine.unpackRx a1 a2 c d1 d2 d3 d4, rfl, unpackRx_ext, unpackRx_std, fun h => if_pos h,
    fun h => if_neg (ne_true_of_eq_false h), ?len,
    toNat_lowerByte d1, toNat_higherByte d1, toNat_lowerByte d2, toNat_higherByte d2,
    toNat_lowerByte d3, toNat_higherByte d3, toNat_lowerByte d4, toNat_higherByte d4⟩
  case len => exact (BitVec.extractLsb'_toNat ..).trans (by rw [Nat.shiftRight_zero])

end Sys2Proof.Machine

/-! SUPPORT. The lifecycle calls (45_lifecycle.md) as chains of turns: ENABLE and the templates; INIT up to its release of INIT; the bits
of a mode and the ENABLE after them; MONITOR, with a step of the engine between its transactions; and the calls that assert reset, whose
block is known only as one that a reset leaves. -/

namespace Sys2Proof.Machine

/-- A call whose plan leads to its return over the turns of the schedule has returned. -/
theorem State.LeadsTo.returned_of_turns {s s' : State} {start : State → State} {plan todo : List Micro} {ts ts' : List Turn} {b : Block}
    {r : Ret} (ht : s.turns = ts) (hp : start s = s.startPlan plan)
    (h : s.LeadsTo s.running (s.ctx s.running).calls ts s.block plan s' ts' b (.ret r :: todo))
    (hmain : s'.main = s.main) (hirq : s'.irq = s.irq) :
    ∃ t, Host.Outcome.next (runCall start s) = (.next t : Host.Outcome State Fault Refusal) ∧ Safety.Returned s' b ts' r t :=
  State.LeadsTo.returned hp (ht ▸ h) hmain hirq

/-- The same for a call that changes nothing outside the block. -/
theorem State.Leads.returned_of_turns {s : State} {start : State → State} {plan todo : List Micro} {ts ts' : List Turn} {b : Block}
    {r : Ret} (ht : s.turns = ts) (hp : start s = s.startPlan plan)
    (h : s.Leads s.running (s.ctx s.running).calls ts s.block plan ts' b (.ret r :: todo)) :
    ∃ t, Host.Outcome.next (runCall start s) = (.next t : Host.Outcome State Fault Refusal) ∧ Safety.Returned s b ts' r t :=
  State.Leads.returned hp (ht ▸ h)

/-! ### ENABLE (R231) -/

/-- Settles O35: the acknowledgment at once, after failing polls within the bound, not within the bound, and a wait that goes on. -/
theorem enable : Obligations.Enable := by
  unfold Obligations.Enable
  intro s hs
  have hrun := s.runs_running
  have hplan : startEnable s = s.startPlan (enablePlan ++ [.ret .ok]) := rfl
  refine ⟨fun ts ht => ?atOnce, fun j ts hi hj ht => ?acknowledged, fun m ts hi hm ht => ?stalls, fun j hi hm ht => ?polling⟩
  case atOnce =>
    obtain ⟨t, hexec, hret⟩ := State.Leads.returned_of_turns ht hplan (leads_enable hrun hs ⟨_, _, rfl⟩)
    have hblock : t.block = Safety.enabled s.block := block_of_returned hret
    exact ⟨t, hexec, hret, fun hi => hblock.trans (enabled_self hi), hblock ▸ rfl⟩
  case acknowledged =>
    have hpolls := leads_pollsInit (cs := (s.ctx s.running).calls) (ts := .pe .initAck :: .host :: ts) (todo := [.ret .ok]) hrun hs
      (initReads_released s.block) j 0 fun m hm _ => by have := hj m hm; omega
    have hack : s.Leads s.running (s.ctx s.running).calls (.pe .initAck :: .host :: ts) (Safety.released s.block)
        [.spinInit (0 + j) false, .ret .ok] ts (Safety.enabled s.block) [.ret .ok] :=
      (State.leads_ack hs rfl rfl).trans (State.leads_spinInit hrun hs rfl)
    rw [hosts_add, List.append_assoc, List.append_assoc] at ht
    exact State.Leads.returned_of_turns ht hplan ((leads_initRelease hrun hs hi).trans (hpolls.trans hack))
  case stalls => exact State.Leads.returned_of_turns ht hplan (leads_enableStall hrun hs hm hi)
  case polling =>
    have hpolls := leads_pollsInit (cs := (s.ctx s.running).calls) (ts := []) (todo := [.ret .ok]) hrun hs
      (initReads_released s.block) j 0 fun m hm' _ => by rw [hm] at hm'; cases hm'
    rw [List.append_nil, Nat.zero_add] at hpolls
    rw [hosts_add] at ht
    exact ⟨_, rfl, State.Leads.inProgress hplan rfl (ht ▸ (leads_initRelease hrun hs hi).trans hpolls)⟩

/-! ### INSTALL_TEMPLATES (R232) -/

/-- Settles O36: the chain of the templates' writes leads to the return. -/
theorem installTemplates : Obligations.InstallTemplates := by
  unfold Obligations.InstallTemplates
  intro s ts hs hidle ht
  obtain ⟨b, htemplates, hleft⟩ := leads_templates (ts := ts) (todo := [.ret .ok]) s.runs_running hs hidle s.params.templateValid
  obtain ⟨t, hexec, hret⟩ := State.Leads.returned_of_turns (start := startInstallTemplates) ht rfl htemplates
  exact ⟨t, b, hexec, hret, hleft⟩

/-! ### INIT (R233, R234) -/

/-- The block after INIT's steps 1 to 4, for the timing word w of the default rate: INIT is CNTL's one bit, and a word of 0 leaves the
timing (R130, R233). -/
def Block.initTimed (b : Block) (w : BitVec 32) : Block := { b with
  cntl := { test := false, cce := false, dar := false, eie := false, sie := false, ie := false, init := true }
  initPending := false
  bt := if w = 0#32 then b.bt else w.extractLsb' 0 15
  clkdiv := if w = 0#32 then b.clkdiv else w.extractLsb' 16 16 }

section
variable {s : State} {c : CtxId} {cs : List Activation} {ts : List Turn} {b : Block} {todo : List Micro}

/-- INIT's set_bitrate after CNTL was written 1: its wait is left out, since INIT reads 1 (R130). -/
theorem leads_defaultBitrate (hc : s.Runs c) (hs : Safety.Ready s) :
    s.Leads c cs ((if btCalc s.params.clkHz 100000 0 = 0#32 then [] else Safety.hosts 5) ++ ts) (b.writeCntl 0x0001#16)
      (defaultBitratePlan s.params.clkHz ++ todo) ts (b.initTimed (btCalc s.params.clkHz 100000 0)) todo := by
  have hplan : defaultBitratePlan s.params.clkHz = if btCalc s.params.clkHz 100000 0 = 0#32 then [] else
    setBitratePlan (btCalc s.params.clkHz 100000 0) true := rfl
  rw [hplan, Block.initTimed]
  generalize btCalc s.params.clkHz 100000 0 = w
  by_cases hw : w = 0#32
  · simp only [if_pos hw]
    exact State.Leads.refl
  · simp only [if_neg hw]
    exact leads_bitrateWrites (b := b.writeCntl 0x0001#16) hc hs w true

/-- INIT from any clock and reset state, up to the write that releases INIT (R233 steps 1 to 4). -/
theorem leads_initTimed (hc : s.Runs c) (hr : s.refused = none) (rx tx : Nat) :
    s.LeadsTo c cs (Safety.hosts 4 ++ (if btCalc s.params.clkHz 100000 0 = 0#32 then [] else Safety.hosts 5) ++ ts) b
      (initPlan s.params rx tx) { s with clkEn := true, rst := false } ts (b.initTimed (btCalc s.params.clkHz 100000 0))
      (.wr .cntl 0x0000#16 :: .spinInit 0 false :: (templatesPlan s.params.templateValid ++ [.ret .ok])) := by
  let u : State := { s with clkEn := true, rst := false }
  have hu : Safety.Ready u := ⟨rfl, rfl, hr⟩
  have hplan : initPlan s.params rx tx = .envClock true :: .envReset false :: .wr .cntl 0x0001#16 :: .route rx tx ::
      (defaultBitratePlan s.params.clkHz ++
        (.wr .cntl 0x0000#16 :: .spinInit 0 false :: (templatesPlan s.params.templateValid ++ [.ret .ok]))) := by
    simp only [initPlan, List.append_assoc]
    rfl
  rw [hplan, List.append_assoc]
  refine (State.leads_envClock hc hr true).trans ((State.leads_release (s := s.envClock true) hc hr).trans ?_)
  exact ((State.leads_wr (s := u) hc hu (writeCntl_words b _)).trans
    ((State.leads_route (s := u) hc hr rx tx).trans (leads_defaultBitrate hc hu))).to

end

/-- Settles O45: the chain up to the release of INIT, then its acknowledgment and the templates, or the wait that stalls. -/
theorem init : Obligations.Init := by
  unfold Obligations.Init
  intro s rx tx ts hr w left
  let u : State := { s with clkEn := true, rst := false }
  have hrun := s.runs_running
  have hu : Safety.Ready u := ⟨rfl, rfl, hr⟩
  have hplan : startInit rx tx s = s.startPlan (initPlan s.params rx tx) := rfl
  refine ⟨fun hidle ht => ?starts, fun m hm ht => ?stalls⟩
  case starts =>
    obtain ⟨b, htemplates, hobjs, hidle', hrest⟩ := leads_templates (s := u) (cs := (s.ctx s.running).calls) (ts := ts)
      (todo := [.ret .ok]) (b := left false) hrun hu hidle s.params.templateValid
    have htimed := leads_initTimed (cs := (s.ctx s.running).calls) (b := s.block)
      (ts := .host :: .pe .initAck :: .host :: (Safety.templateTurns ++ ts)) hrun hr rx tx
    have hstart := leads_startUp (s := u) (cs := (s.ctx s.running).calls) (ts := Safety.templateTurns ++ ts) (b := s.block.initTimed w)
      (todo := templatesPlan s.params.templateValid ++ [.ret .ok]) hrun hu rfl
    rw [List.append_assoc, List.append_assoc] at ht
    obtain ⟨t, hexec, hret⟩ := State.LeadsTo.returned_of_turns ht hplan (htimed.trans (hstart.trans htemplates).to) rfl rfl
    have hmode : b.mode = .normal := show Block.mode { b with if1 := s.block.if1, objs := s.block.objs } = .normal from hrest ▸ rfl
    exact ⟨t, b, hexec, hret, hmode, hobjs, hidle', hrest⟩
  case stalls =>
    have htimed := leads_initTimed (cs := (s.ctx s.running).calls) (b := s.block)
      (ts := .host :: (Safety.stallTurns m ++ ts)) hrun hr rx tx
    have hclear := leads_clearCntl (s := u) (cs := (s.ctx s.running).calls) (ts := Safety.stallTurns m ++ ts) (b := s.block.initTimed w)
      (todo := .spinInit 0 false :: (templatesPlan s.params.templateValid ++ [.ret .ok])) hrun hu rfl
    rw [List.append_assoc, List.append_assoc] at ht
    exact State.LeadsTo.returned_of_turns ht hplan
      (htimed.trans (hclear.trans (leads_stallInit (s := u) hrun hu hm (initReads_released _))).to) rfl rfl

/-! ### SET_MODE (R237) -/

/-- The block once the bits of a mode are written and before ENABLE: INIT is written back as it read (R230, R237). -/
def Block.modeBits (b : Block) (test : Bool) (bits : TestBits) : Block :=
  { b with cntl := { b.cntl with test := test, init := b.initReads }, initPending := false, test := bits }

/-- In k turns of the host set_mode writes the bits of the mode, and stands before ENABLE (R237). -/
def State.WritesMode (s : State) (mode : ReqMode) (k : Nat) (test : Bool) (bits : TestBits) : Prop :=
  ∀ ts, s.Leads s.running (s.ctx s.running).calls (Safety.hosts k ++ ts) s.block (setModePlan mode) ts
    (s.block.modeBits test bits) (enablePlan ++ [.ret (.value 1)])

/-- The bits of a mode leave what INIT reads. -/
theorem Block.initReads_modeBits (b : Block) (test : Bool) (bits : TestBits) : (b.modeBits test bits).initReads = b.initReads :=
  Bool.or_false _

section
variable {s : State} {c : CtxId} {cs : List Activation} {ts : List Turn} {b : Block} {todo : List Micro}

/-- The writes of NORMAL as a chain, up to ENABLE (R237). -/
theorem leads_normalBits (hc : s.Runs c) (hs : Safety.Ready s) :
    s.Leads c cs (Safety.hosts 5 ++ ts) b (setModePlan .normal) ts (b.modeBits false { lback := false, silent := false })
      (enablePlan ++ [.ret (.value 1)]) := by
  have hset := leads_setTest (cs := cs) (ts := .host :: .host :: .host :: ts) (b := b)
    (todo := .wr .test 0x0000#16 :: (clrCntlPlan 0x0080#16 ++ (enablePlan ++ [.ret (.value 1)]))) hc hs
  refine hset.trans ((State.leads_wr hc hs (writeTest_ok rfl (l := false) (m := false) (by decide))).trans ?_)
  refine leads_clrCntl hc hs 0x0080#16 ?_
  rw [cntl_clr]
  simp [Block.modeBits]

variable {mode : ReqMode} {k : Nat} {test : Bool} {bits : TestBits}

/-- A mode whose writes lead to ENABLE, the acknowledgment coming at once: it returns 1, enabled with its bits. -/
theorem exec_setMode_enabled (hs : Safety.Ready s)
    (hbits : s.WritesMode mode k test bits)
    (ht : s.turns = Safety.hosts k ++ Safety.enableTurns s.block ++ ts) :
    ∃ t, exec (.setMode mode) s = .next t ∧ t.block.mode = ((Safety.enabled s.block).modeBits test bits).mode ∧
      Safety.Returned s ((Safety.enabled s.block).modeBits test bits) ts (.value 1) t := by
  have henable := leads_enable_of (cs := (s.ctx s.running).calls) (ts := ts) (todo := [.ret (.value 1)]) s.runs_running hs ⟨_, _, rfl⟩
    (s.block.initReads_modeBits test bits)
  rw [List.append_assoc] at ht
  obtain ⟨t, hexec, hret⟩ := State.Leads.returned_of_turns (start := startSetMode mode) ht rfl ((hbits _).trans henable)
  exact ⟨t, hexec, congrArg Block.mode (block_of_returned hret), hret⟩

/-- A mode whose writes lead to ENABLE, which stalls: it returns Stall, its bits written (R231, R263). -/
theorem exec_setMode_stalled (hs : Safety.Ready s) {m : Nat} (hi : s.block.initReads = true) (hm : s.params.maxSpin = some m)
    (hbits : s.WritesMode mode k test bits)
    (ht : s.turns = Safety.hosts (k + 2) ++ Safety.stallTurns m ++ ts) :
    ∃ t, exec (.setMode mode) s = .next t ∧ Safety.Returned s (Safety.released (s.block.modeBits test bits)) ts .stall t := by
  have hstall := leads_enableStall (cs := (s.ctx s.running).calls) (ts := ts) (todo := [.ret (.value 1)]) s.runs_running hs hm
    ((s.block.initReads_modeBits test bits).trans hi)
  rw [hosts_add, List.append_assoc, List.append_assoc, ← List.append_assoc (Safety.hosts 2)] at ht
  exact State.Leads.returned_of_turns (start := startSetMode mode) ht rfl ((hbits _).trans hstall)

end

/-- SET_CNTL of INIT as a chain (R230, R237). -/
theorem leads_setInit {s : State} {c : CtxId} {cs : List Activation} {ts : List Turn} {b : Block} {todo : List Micro} (hc : s.Runs c)
    (hs : Safety.Ready s) :
    s.Leads c cs (Safety.hosts 2 ++ ts) b (setCntlPlan 0x0001#16 ++ todo) ts
      { b with cntl := { b.cntl with init := true }, initPending := false } todo :=
  leads_setCntl hc hs 0x0001#16 (by rw [cntl_set]; simp)

/-- Settles O46: DISABLED is SET_CNTL of INIT, GLOBAL_TEST a return, and the writes of each other mode lead to ENABLE. -/
theorem setMode : Obligations.SetMode := by
  unfold Obligations.SetMode
  intro s ts hs b testMode
  have hrun := s.runs_running
  have hnormal : s.WritesMode .normal 5 false { lback := false, silent := false } := fun ts => leads_normalBits hrun hs
  have hsilent : s.WritesMode .silent 4 true { lback := false, silent := true } :=
    fun ts => leads_testBits hrun hs (by decide)
  have hloopback : s.WritesMode .loopback 4 true { lback := true, silent := false } :=
    fun ts => leads_testBits hrun hs (by decide)
  have hboth : s.WritesMode .silentLoopback 4 true { lback := true, silent := true } :=
    fun ts => leads_testBits hrun hs (by decide)
  refine ⟨fun ht => ?disabled, exec_setMode_enabled hs hnormal, exec_setMode_enabled hs hsilent, exec_setMode_enabled hs hloopback,
    exec_setMode_enabled hs hboth, fun ht => ?globalTest, fun m hi hm => ⟨exec_setMode_stalled hs hi hm hnormal,
      exec_setMode_stalled hs hi hm hsilent, exec_setMode_stalled hs hi hm hloopback, exec_setMode_stalled hs hi hm hboth⟩⟩
  case disabled =>
    obtain ⟨t, hexec, hret⟩ := State.Leads.returned_of_turns (start := startSetMode .disabled) ht rfl (leads_setInit hrun hs)
    exact ⟨t, hexec, block_of_returned hret ▸ rfl, hret⟩
  case globalTest => exact State.Leads.returned_of_turns (start := startSetMode .globalTest) ht rfl State.Leads.refl

/-! ### MONITOR (R239, R240) -/

section
variable {s : State} {c : CtxId} {cs : List Activation} {ts : List Turn} {b : Block} {todo : List Micro}

/-- A step of the engine that is enabled, while the call stands before an action (R266). -/
theorem State.leads_pe (hs : Safety.Ready s) {m : Micro} (hm : m.goesOn = true) {e : PeEvent}
    (he : b.peEnabled s.params.peStrict e = true) :
    s.Leads c cs (.pe e :: ts) b (m :: todo) ts (b.peEffect s.params.peStrict e) (m :: todo) := fun n w => by
  obtain ⟨hclk, hrst, hr⟩ := hs
  exact ⟨n, w, runTurns_pe hr (State.admitted_iff.2 ⟨hclk, hrst⟩) m hm e he⟩

/-- LBACK alone of TEST (R39, R239). -/
theorem testWord_lback (t : TestBits) : testWord t &&& 0x0010#16 = flag 4 t.lback := by
  obtain ⟨lback, silent⟩ := t
  cases lback <;> cases silent <;> rfl

/-- The write that ends monitor(off), of a CNTL value read before: TEST is cleared and INIT written as it read then, which is a release of
an INIT that reads 1 now (R147, R239, R313). -/
theorem writeCntl_clrTest (b : Block) (cntl : Cntl) (init : Bool) :
    b.writeCntl ((cntlWord cntl init &&& 0x00EF#16) &&& ~~~ 0x0080#16) =
      { b with cntl := { cntl with test := false, init := init }, initPending := !init && b.initReads } := by
  simp only [Block.writeCntl, BitVec.getLsbD_and, BitVec.getLsbD_not, BitVec.getLsbD_or, cntlWord, getLsbD_flag, Block.initReads]
  cases init <;> cases b.cntl.init <;> simp

/-- monitor(on) as a chain. -/
theorem leads_monitorOn (hc : s.Runs c) (hs : Safety.Ready s) :
    s.Leads c cs (Safety.hosts 4 ++ ts) b (monitorPlan true) ts
      (b.modeBits true { lback := b.test.lback, silent := true }) [.ret .ok] := by
  have hset := leads_setTest (cs := cs) (ts := .host :: .host :: ts) (b := b) (todo := [.rd .test .monitorOn, .ret .ok]) hc hs
  have hread : s.Leads c cs (.host :: .host :: ts) { b with
        cntl := { b.cntl with test := true, init := b.initReads }, initPending := false } [.rd .test .monitorOn, .ret .ok] (.host :: ts) _
      [.wr .test ((testWord b.test &&& 0x0010#16) ||| 0x0008#16), .ret .ok] :=
    State.leads_rd hc hs (l := [_]) fun free => by rw [Cont.next, Block.usedWord_test _ _ rfl]
  refine hset.trans (hread.trans (State.leads_wr hc hs (writeTest_ok rfl ?_)))
  rw [testWord_lback]
  rfl

/-- The read of CNTL in monitor(off): the writes follow if TEST is set. -/
theorem leads_monitorOffRead (hc : s.Runs c) (hs : Safety.Ready s) :
    s.Leads c cs (.host :: ts) b (monitorPlan false) ts b
      ((if b.cntl.test then [.rd .test (.monitorOffTest (cntlWord b.cntl b.initReads))] else []) ++ [.ret .ok]) :=
  State.leads_rd hc hs fun free => by
    have hbit : (cntlWord b.cntl b.initReads).getLsbD 7 = b.cntl.test := by simp [cntlWord, getElem_flag]
    rw [Cont.next, Block.usedWord_cntl, hbit]

/-- The rest of monitor(off) as a chain, for the CNTL value read before. -/
theorem leads_monitorOffWrites (hc : s.Runs c) (hs : Safety.Ready s) (htest : b.cntl.test = true) (cntl : Cntl) (init : Bool) :
    s.Leads c cs (Safety.hosts 3 ++ ts) b [.rd .test (.monitorOffTest (cntlWord cntl init)), .ret .ok] ts
      { b with
        cntl := { cntl with test := false, init := init }, initPending := !init && b.initReads
        test := { lback := b.test.lback, silent := false } } [.ret .ok] := by
  have hread : s.Leads c cs (Safety.hosts 3 ++ ts) b [.rd .test (.monitorOffTest (cntlWord cntl init)), .ret .ok]
      (.host :: .host :: ts) b [.wr .test (testWord b.test &&& 0x0010#16),
        .wr .cntl ((cntlWord cntl init &&& 0x00EF#16) &&& ~~~ 0x0080#16), .ret .ok] :=
    State.leads_rd hc hs (l := [_, _]) fun free => by rw [Cont.next, Block.usedWord_test _ _ htest]
  have htestBits : testWord b.test &&& 0x0010#16 = flag 4 b.test.lback ||| flag 3 false :=
    (testWord_lback b.test).trans BitVec.or_zero.symm
  refine hread.trans ((State.leads_wr hc hs (writeTest_ok htest htestBits)).trans (State.leads_wr hc hs ?_))
  rw [writeCntl_words, writeCntl_clrTest]
  rfl

end

/-- Settles O47: on and off as chains; a bus-off step of the engine may stand between off's read of CNTL and the writes that go by it. -/
theorem monitor : Obligations.Monitor := by
  unfold Obligations.Monitor
  intro s ts hs
  have hrun := s.runs_running
  refine ⟨fun ht => ?on, fun htest ht => ?off, fun htest ht => ?alreadyOff, fun ec ew ep lec g htest hi ht => ?race⟩
  case on => exact State.Leads.returned_of_turns (start := startMonitor true) ht rfl (leads_monitorOn hrun hs)
  case off =>
    have hread := leads_monitorOffRead (cs := (s.ctx s.running).calls) (ts := Safety.hosts 3 ++ ts) (b := s.block) hrun hs
    have hwrites := leads_monitorOffWrites (cs := (s.ctx s.running).calls) (ts := ts) hrun hs htest s.block.cntl s.block.initReads
    rw [if_pos htest] at hread
    rw [Bool.not_and_self] at hwrites
    exact State.Leads.returned_of_turns (start := startMonitor false) ht rfl (hread.trans hwrites)
  case alreadyOff =>
    have hread := leads_monitorOffRead (cs := (s.ctx s.running).calls) (ts := ts) (b := s.block) hrun hs
    rw [if_neg (ne_true_of_eq_false htest)] at hread
    exact State.Leads.returned_of_turns (start := startMonitor false) ht rfl hread
  case race =>
    let e : PeEvent := .error ec true ew ep lec g
    have hread := leads_monitorOffRead (cs := (s.ctx s.running).calls) (ts := .pe e :: (Safety.hosts 3 ++ ts)) (b := s.block) hrun hs
    have hbusOff := State.leads_pe (c := s.running) (cs := (s.ctx s.running).calls) (ts := Safety.hosts 3 ++ ts) (b := s.block)
      (m := .rd .test (.monitorOffTest (cntlWord s.block.cntl false))) (todo := [.ret .ok]) (e := e) hs rfl rfl
    have hwrites := leads_monitorOffWrites (cs := (s.ctx s.running).calls) (ts := ts) (b := s.block.peEffect s.params.peStrict e)
      hrun hs htest s.block.cntl false
    rw [if_pos htest, hi] at hread
    exact State.Leads.returned_of_turns (start := startMonitor false) ht rfl (hread.trans (hbusOff.trans hwrites))

/-! ### The calls that assert reset (R300) -/

/-- A call that leads to an assertion of reset, and from whichever block the reset leaves to its return: it has returned, with a block of
which Q holds. -/
theorem returned_of_reset {s s₁ s₂ : State} {start : State → State} {plan todo : List Micro} {ts₀ ts ts' : List Turn} {b : Block}
    {r : Ret} {Q : Block → Prop} (ht : s.turns = ts₀) (hp : start s = s.startPlan plan)
    (hassert : s.LeadsTo s.running (s.ctx s.running).calls ts₀ s.block plan s₁ (.host :: ts) b (.envReset true :: todo))
    (hr : s₁.refused = none)
    (hreturn : ∀ drawn, ∃ b', Q b' ∧ ({ s₁ with rst := true } : State).LeadsTo s.running (s.ctx s.running).calls ts
      (Block.afterReset drawn) todo s₂ ts' b' [.ret r])
    (hirq₁ : s₁.irq = s.irq) (hirq : s₂.irq = s.irq) (hmain : s₂.main = s.main) :
    ∃ t b', Host.Outcome.next (runCall start s) = (.next t : Host.Outcome State Fault Refusal) ∧ Safety.Returned s₂ b' ts' r t ∧
      Q b' := by
  have hc : s₁.Runs s.running := by rw [State.Runs, hirq₁]; exact s.runs_running
  have hrunning : s₂.running = s.running := by rw [State.running, State.running, hirq]
  have hctx : s₂.ctx s.running = s.ctx s.running := by
    cases s.running
    · exact hmain
    · exact hirq
  obtain ⟨n, w, hfirst⟩ := hassert s.fresh (s.ctx s.running).rdata
  obtain ⟨b', hQ, hlast⟩ := hreturn (Config.freeBlock n)
  obtain ⟨n', w', hlast⟩ := hlast (n + 1) w
  have hrun : runCall start s = s₂.afterCall s.running (s.ctx s.running).calls b' n' w' r ts' := by
    rw [runCall_plan plan start hp, ht, hfirst, runTurns_assert hc hr, hlast, runTurns_ret]
  refine ⟨_, b', congrArg _ hrun, ⟨n', w', ?_⟩, hQ⟩
  rw [hrunning, hctx]
  rfl

/-- Settles O48: whichever block the reset leaves, the templates' writes keep all of it but the objects and IF1. -/
theorem reset : Obligations.Reset := by
  unfold Obligations.Reset
  intro s ts hclk hr ht
  have hrun := s.runs_running
  have hs : Safety.Ready { s with rst := false } := ⟨hclk, rfl, hr⟩
  refine returned_of_reset (start := startReset) ht rfl State.Leads.refl.to hr (fun drawn => ?_) rfl rfl rfl
  obtain ⟨b, htemplates, hobjs, hidle, hrest⟩ := leads_templates (s := { s with rst := false }) (cs := (s.ctx s.running).calls)
    (ts := ts) (todo := [.ret .ok]) (b := Block.afterReset drawn) hrun hs rfl s.params.templateValid
  have hinit : b.cntl.init = true := (congrArg (·.cntl.init) hrest :)
  refine ⟨b, ⟨hinit, (congrArg (·.initPending) hrest :), (congrArg (·.statInt) hrest :), hidle, (congrArg (·.if2.busy) hrest :), ?_,
    fun n => ⟨_, hobjs n⟩⟩, ?_⟩
  · rw [Block.mode, Block.initReads, hinit]
    rfl
  · exact (State.leads_release (s := { s with rst := true }) hrun hr).trans htemplates.to

/-- irq_unregister() as a chain, up to its return: the registration is emptied and the interrupt enables are cleared (R277). -/
theorem leads_unregister {s : State} {c : CtxId} {cs : List Activation} {ts : List Turn} {b : Block} {todo : List Micro} (hc : s.Runs c)
    (hs : Safety.Ready s) :
    s.LeadsTo c cs (Safety.hosts 4 ++ ts) b (unregisterPlan ++ todo) { s with hostIe := false, reg := Registration.empty } ts
      { b with cntl := { b.cntl with eie := false, sie := false, ie := false, init := b.initReads }, initPending := false } todo := by
  have ⟨_, _, hr⟩ := hs
  refine (State.leads_hostIe hc hr false).trans ((State.leads_setReg (s := { s with hostIe := false }) hc hr Registration.empty).trans ?_)
  refine (leads_clrCntl (s := { s with hostIe := false, reg := Registration.empty }) hc hs 0x000E#16 ?_).to
  rw [cntl_clr]
  simp [Block.initReads]

/-- While a block is gated no bus transaction has a step: a read of CNTL is the fault (R140, R305). -/
theorem exec_rdCntl_gated {s : State} (hclk : s.clkEn = false) : exec .rdCntl s = .fault .notAdmitted := by
  have hgated : ¬ s.admitted = true := fun ha => absurd (State.admitted_iff.1 ha).1 (ne_true_of_eq_false hclk)
  exact if_neg hgated

/-- Settles O49: the turns of IRQ_UNREGISTER and the gating of the clock, then the reset, whose block the return keeps. -/
theorem teardown : Obligations.Teardown := by
  unfold Obligations.Teardown
  intro s ts hs ht
  have hrun := s.runs_running
  have ⟨_, _, hr⟩ := hs
  have hgate : s.LeadsTo s.running (s.ctx s.running).calls (Safety.hosts 6 ++ ts) s.block teardownPlan
      { s with hostIe := false, reg := Registration.empty, clkEn := false } (.host :: ts) _ [.envReset true, .ret .ok] :=
    (leads_unregister hrun hs).trans
      (State.leads_envClock (s := { s with hostIe := false, reg := Registration.empty }) hrun hr false)
  obtain ⟨t, _, hexec, hret, drawn, rfl⟩ := returned_of_reset (start := startTeardown) ht rfl hgate hr
    (Q := fun b => ∃ drawn, b = Block.afterReset drawn) (fun drawn => ⟨_, ⟨drawn, rfl⟩, State.Leads.refl.to⟩) rfl rfl rfl
  have hclk : t.clkEn = false := by
    obtain ⟨_, _, rfl⟩ := hret
    exact State.setCtx_clkEn _ _ _
  exact ⟨t, _, hexec, hret, rfl, rfl, rfl, rfl, rfl, exec_rdCntl_gated hclk⟩

end Sys2Proof.Machine

/-! SUPPORT. The steps of the protocol engine (R266, R267): a turn of the engine is its step's effect while it is enabled and nothing
else, and what no effect changes. -/

namespace Sys2Proof.Machine

/-! ### A turn of the engine -/

/-- A turn of the engine is its step, from every state that takes one (R9). -/
theorem step_pe {s : State} {e : PeEvent} {ts : List Turn} (hr : s.refused = none) (ht : s.turns = .pe e :: ts) :
    step s = .next (({ s with turns := ts } : State).peStep e) := turn_step hr ht

/-- The engine's step changes nothing, or has its effect on the block (R266). -/
theorem State.peStep_cases (s : State) (e : PeEvent) :
    s.peStep e = s ∨ s.peStep e = s.withBlock (s.block.peEffect s.params.peStrict e) := by
  unfold State.peStep
  split
  · exact .inr rfl
  · exact .inl rfl

/-- While the engine's agents may step, a turn has the effect b' if its guard P holds and changes nothing if not (R266). -/
theorem step_pe_guarded {s : State} {e : PeEvent} {P : Prop} {b' : Block} (ts : List Turn) (hr : s.refused = none)
    (ha : s.admitted = true) (hP : s.block.peEnabled s.params.peStrict e = true ↔ P)
    (hb : s.block.peEffect s.params.peStrict e = b') :
    (P → step { s with turns := .pe e :: ts } = .next { s with turns := ts, block := b' }) ∧
    (¬ P → step { s with turns := .pe e :: ts } = .next { s with turns := ts, block := s.block }) := by
  have hstep : step { s with turns := .pe e :: ts } = .next (({ s with turns := ts } : State).peStep e) := step_pe hr rfl
  have hadm : ({ s with turns := ts } : State).admitted = true := ha
  rw [hstep, State.peStep, hadm, Bool.true_and, ← hb, ← hP]
  exact ⟨fun h => congrArg _ (if_pos h), fun h => congrArg _ (if_neg h)⟩

/-! ### The guards (R266) -/

section
variable (b : Block) (strict : Bool)

theorem Block.onBus_iff : b.onBus = true ↔ (b.cntl.init || b.initPending) = false := by
  rw [Block.onBus, Block.initReads, Bool.not_eq_true']

theorem Block.peEnabled_txDone (n : Slot) (lec : BitVec 3) (gTx gS : Bool) : b.peEnabled strict (.txDone n lec gTx gS) = true ↔
    (b.cntl.init || b.initPending) = false ∧ (b.obj n).msgval = true ∧ (b.obj n).txrqst = true := by
  simp only [Block.peEnabled, Bool.and_eq_true, Block.onBus_iff, and_assoc]

theorem Block.peEnabled_remoteReq (n : Slot) (gS : Bool) : b.peEnabled strict (.remoteReq n gS) = true ↔
    (b.cntl.init || b.initPending) = false ∧ (b.obj n).msgval = true ∧ (b.obj n).dir = true ∧ (b.obj n).rmten = true := by
  simp only [Block.peEnabled, Bool.and_eq_true, Block.onBus_iff, and_assoc]

/-- pe_rx_store's guard, for any spelling P of the acceptance predicate (R197). -/
theorem Block.peEnabled_rxStore {P : Obj → Prop} {f : Frame} (hP : ∀ o, o.accepts f = true ↔ P o) (n : Slot) (lec : BitVec 3)
    (low : BitVec 18) (gRx gS : Bool) : b.peEnabled strict (.rxStore n f lec low gRx gS) = true ↔
    (b.cntl.init || b.initPending) = false ∧ (b.obj n).msgval = true ∧ (b.obj n).dir = false ∧ f.len ≤ 15 ∧
      (strict = true → P (b.obj n) ∧ (∀ m : Slot, m < n → ¬ P (b.obj m)) ∧ f.type = .data) := by
  simp only [Block.peEnabled, mayStore_iff, ← hP, Bool.not_eq_true]

end

/-! ### The effects (R266) -/

/-- The identifier of a received frame in ID[28:0] positions, as a number: the low bits below a standard one are drawn (R266). -/
theorem Obj.received_id_toNat (o : Obj) (strict : Bool) (f : Frame) (low : BitVec 18) (g : Bool) :
    (o.received strict f low g).id.toNat =
      if f.fmt = .ext then f.id % 536870912 else f.id % 2048 * 262144 + low.toNat := by
  cases hfmt : f.fmt with
  | ext => simp [Obj.received, frameIdent, hfmt]
  | std =>
    have hid : (o.received strict f low g).id = field 18 (BitVec.ofNat 11 f.id) ||| field 0 low := by
      simp only [Obj.received, frameIdent, hfmt]
    rw [hid, toNat_fields _ _ (by decide), BitVec.toNat_ofNat, if_neg nofun]
    rfl

/-- A received frame's length, as a number. -/
theorem Obj.received_dlc_toNat (o : Obj) (strict : Bool) {f : Frame} (low : BitVec 18) (g : Bool) (hlen : f.len ≤ 15) :
    (o.received strict f low g).dlc.toNat = f.len := by
  rw [Obj.received, BitVec.toNat_ofNat]
  omega

/-- What pe_rx_store leaves of an object besides the identifier and the length (R266). -/
theorem Obj.received_eq (o : Obj) (strict : Bool) (f : Frame) (low : BitVec 18) (gRx : Bool) :
    o.received strict f low (gate strict gRx o.rxie) = { o with
      id := (o.received strict f low (gate strict gRx o.rxie)).id
      dlc := (o.received strict f low (gate strict gRx o.rxie)).dlc
      xtd := decide (f.fmt = .ext)
      dir := if strict then o.dir else decide (f.type = .remote)
      data := f.data, msglst := o.msglst || o.newdat, newdat := true
      intpnd := o.intpnd || if strict then o.rxie else gRx } := by
  have hxtd : (f.fmt == .ext) = decide (f.fmt = .ext) := by cases f.fmt <;> rfl
  have hdir : (f.type == .remote) = decide (f.type = .remote) := by cases f.type <;> rfl
  rw [← hxtd, ← hdir]
  rfl

/-- A bus-off sets INIT and withdraws a pending acknowledgment; no other error change touches them (R266). -/
theorem Block.peEffect_error (b : Block) (strict : Bool) (ec : Word) (boff ewarn epass : Bool) (lec : BitVec 3) (gE : Bool) :
    b.peEffect strict (.error ec boff ewarn epass lec gE) = { b with
      ec := ec, stat := { b.stat with boff := boff, ewarn := ewarn, epass := epass, lec := lec }
      cntl := { b.cntl with init := b.cntl.init || boff }
      initPending := b.initPending && !boff
      statInt := b.statInt || if strict then b.cntl.eie else gE } := by
  cases boff <;> simp [Block.peEffect, gate]

/-- Settles O54: each step's guard is the one R266 names, and its effect the one of the table. -/
theorem peSteps : Obligations.PeSteps := by
  unfold Obligations.PeSteps
  intro s ts hr hclk hrst
  have hadm : s.admitted = true := State.admitted_iff.2 ⟨hclk, hrst⟩
  have hack := step_pe_guarded (e := .initAck) ts hr hadm Iff.rfl rfl
  refine ⟨hack.1, fun h => hack.2 (ne_true_of_eq_false h), fun n lec gTx gS => ?txDone, fun n f lec low gRx gS => ?rxStore,
    fun n gS => ?remoteReq, fun ec boff ewarn epass lec gE => ?error⟩
  case txDone => exact step_pe_guarded ts hr hadm (s.block.peEnabled_txDone _ n lec gTx gS) rfl
  case remoteReq => exact step_pe_guarded ts hr hadm (s.block.peEnabled_remoteReq _ n gS) rfl
  case error =>
    exact (step_pe_guarded (P := True) ts hr hadm (iff_true_intro rfl) (s.block.peEffect_error _ ec boff ewarn epass lec gE)).1 trivial
  case rxStore =>
    obtain ⟨hstores, hkeeps⟩ := step_pe_guarded ts hr hadm
      (s.block.peEnabled_rxStore s.params.peStrict (fun o => accepts_iff o f) n lec low gRx gS) rfl
    refine ⟨fun hmay => ?_, hkeeps⟩
    have ⟨_, _, _, hlen, _⟩ := hmay
    exact ⟨_, hstores hmay, Obj.received_id_toNat .., Obj.received_dlc_toNat _ _ _ _ hlen, Obj.received_eq ..⟩

/-! ### What no step changes (R267) -/

/-- The fields of an object that the engine never changes are the same in both (R267). -/
def Obj.SameSetup (o o' : Obj) : Prop :=
  o'.msgval = o.msgval ∧ o'.mxtd = o.mxtd ∧ o'.mdir = o.mdir ∧ o'.msk = o.msk ∧ o'.umask = o.umask ∧ o'.eob = o.eob ∧
    o'.txie = o.txie ∧ o'.rxie = o.rxie ∧ o'.rmten = o.rmten

theorem Obj.SameSetup.refl (o : Obj) : o.SameSetup o := ⟨rfl, rfl, rfl, rfl, rfl, rfl, rfl, rfl, rfl⟩

/-- Block b' has of b what R267 says the engine keeps. -/
structure Block.EngineKeeps (b b' : Block) : Prop where
  if1 : b'.if1 = b.if1
  if2 : b'.if2 = b.if2
  bt : b'.bt = b.bt
  clkdiv : b'.clkdiv = b.clkdiv
  test : b'.test = b.test
  cntl : ({ b'.cntl with init := b.cntl.init } : Cntl) = b.cntl
  init : b.cntl.init = true → b'.cntl.init = true
  boff : b'.cntl.init ≠ b.cntl.init → b'.stat.boff = true
  obj : ∀ n, (b.obj n).SameSetup (b'.obj n)

/-- An object replaced by one of the same setup leaves every object's setup. -/
theorem Block.sameSetup_setObj {b : Block} {m : Slot} {o : Obj} (h : (b.obj m).SameSetup o) (n : Slot) :
    (b.obj n).SameSetup ((b.setObj m o).obj n) := by
  by_cases hn : n = m
  · subst hn
    rwa [Block.obj_setObj_same]
  · rw [Block.obj_setObj_other _ hn]
    exact .refl _

/-- A block that differs in no more than the objects, STAT and the latches keeps all but the objects' setup. -/
theorem Block.EngineKeeps.of_objects {b b' : Block} (hrest : { b' with
      objs := b.objs, stat := b.stat, statInt := b.statInt, initPending := b.initPending } = b)
    (hobj : ∀ n, (b.obj n).SameSetup (b'.obj n)) : b.EngineKeeps b' := by
  have hcntl : b'.cntl = b.cntl := (congrArg (·.cntl) hrest :)
  exact ⟨(congrArg (·.if1) hrest :), (congrArg (·.if2) hrest :), (congrArg (·.bt) hrest :), (congrArg (·.clkdiv) hrest :),
    (congrArg (·.test) hrest :), by rw [hcntl], fun h => by rw [hcntl, h], fun h => absurd (by rw [hcntl]) h, hobj⟩

theorem Block.EngineKeeps.refl (b : Block) : b.EngineKeeps b := .of_objects rfl fun _ => .refl _

/-- No effect of the engine changes what R267 lists; of the error change, INIT goes with BOFF. -/
theorem Block.peEffect_keeps (b : Block) (strict : Bool) (e : PeEvent) : b.EngineKeeps (b.peEffect strict e) := by
  cases e with
  | initAck => exact .of_objects rfl fun n => .refl _
  | txDone n | rxStore n | remoteReq n =>
    exact .of_objects rfl (Block.sameSetup_setObj (m := n) ⟨rfl, rfl, rfl, rfl, rfl, rfl, rfl, rfl, rfl⟩)
  | error ec boff ewarn epass lec gE =>
    rw [Block.peEffect_error]
    refine ⟨rfl, rfl, rfl, rfl, rfl, rfl, fun h => ?initKept, fun h => ?busOff, fun n => .refl _⟩
    case initKept => simp [h]
    case busOff => cases boff <;> simp_all

/-- A refused machine takes no step (R11). -/
theorem refused_of_step {s t : State} (h : step s = .next t) : s.refused = none := by
  cases hr : s.refused with
  | none => rfl
  | some m =>
    rw [step, hr] at h
    cases h

/-- Settles O55: the engine's step changes the block alone, and of it what no effect keeps. -/
theorem peNever : Obligations.PeNever := by
  unfold Obligations.PeNever
  intro s t e ts ht hstep
  rw [step_pe (refused_of_step hstep) ht] at hstep
  obtain rfl := Host.Outcome.next.inj hstep
  have hkeeps : s.block.EngineKeeps (({ s with turns := ts } : State).peStep e).block := by
    rcases State.peStep_cases { s with turns := ts } e with h | h <;> rw [h]
    · exact .refl _
    · exact s.block.peEffect_keeps _ e
  have hframe : ({ ({ s with turns := ts } : State).peStep e with block := s.block, turns := s.turns } : State) = s := by
    rcases State.peStep_cases { s with turns := ts } e with h | h
    all_goals rw [h]
    all_goals rfl
  obtain ⟨hif1, hif2, hbt, hclkdiv, htest, hcntl, hinit, hboff, hobj⟩ := hkeeps
  exact ⟨hif1, hif2, hbt, hclkdiv, htest, hcntl, hinit, hboff, fun n o o' ho ho' => ho ▸ ho' ▸ hobj n, hframe⟩

end Sys2Proof.Machine

/-! SUPPORT. The registration calls and dispatch() (60_exceptions.md) as chains of turns: what a dispatch does for the identifier it
reads (R280), the notifications of a status change in their order, and the transfer that clears an object's INTPND and NEWDAT. -/

namespace Sys2Proof.Machine

/-! ### The registration calls (R276 to R278) -/

/-- irq_register(cb, token) as a chain: the registration is replaced and the interrupt enables are set (R276). -/
theorem leads_register {s : State} {c : CtxId} {cs : List Activation} {ts : List Turn} {b : Block} (hc : s.Runs c)
    (hs : Safety.Ready s) (cb token : Nat) :
    s.LeadsTo c cs (Safety.hosts 4 ++ ts) b (registerPlan cb token)
      { s with reg := { cb := some cb, token := some token, rxEn := false, txEn := false }, hostIe := true } ts
      { b with cntl := { b.cntl with eie := true, sie := true, ie := true, init := b.initReads }, initPending := false }
      [.ret .ok] := by
  have ⟨_, _, hr⟩ := hs
  let r : Registration := { cb := some cb, token := some token, rxEn := false, txEn := false }
  refine (State.leads_setReg hc hr r).trans ((State.leads_hostIe (s := { s with reg := r }) hc hr true).trans ?_)
  refine (leads_setCntl (s := { s with reg := r, hostIe := true }) hc hs 0x000E#16 ?_).to
  rw [cntl_set]
  simp [Block.initReads]

/-- Settles O50: the two calls as chains; IRQ_ENABLE_CLASS takes no turn. -/
theorem registration : Obligations.Registration := by
  unfold Obligations.Registration
  intro s ts
  refine ⟨fun cb token hs ht => ?register, fun hs ht => ?unregister, fun on => rfl, fun on => rfl⟩
  case register =>
    exact State.LeadsTo.returned_of_turns (start := startIrqRegister cb token) ht rfl (leads_register s.runs_running hs cb token) rfl rfl
  case unregister =>
    exact State.LeadsTo.returned_of_turns (start := startIrqUnregister) ht rfl (leads_unregister s.runs_running hs) rfl rfl

/-! ### The start of a dispatch and its return (R274, R280) -/

section
variable {s : State} {cs : List Activation} {ts : List Turn} {b : Block} {todo : List Micro}

/-- The read of INT as a chain: what the dispatch does is the plan of the identifier read (R280). -/
theorem leads_identifier (hs : Safety.Ready s) :
    s.Leads .irq cs (.host :: ts) b dispatchPlan ts b (identifierPlan b.intWord) := by
  have hread : s.Leads .irq cs (.host :: ts) b [.rd .int .dispatch] ts b (identifierPlan b.intWord ++ []) :=
    State.leads_rd (.inl rfl) hs fun free => by rw [Cont.next, b.usedWord_closed free .int rfl rfl]; rfl
  rwa [List.append_nil] at hread

/-- No callback invocation more. -/
theorem State.notified_nil (s : State) : s.notified [] = s := by
  rw [State.notified, List.append_nil]

/-- A dispatch whose run comes to its return, with the callback invocations ds made, has returned (R274). -/
theorem exec_dispatch_returns {ts' : List Turn} {b' : Block} {ds : List Delivery} (hd : s.mayDispatch = true) (ht : s.turns = ts)
    (h : ∃ n w, runTurns .irq ([] : List Activation).length ts (s.inCall .irq [] s.block s.fresh s.irq.rdata dispatchPlan) =
      runTurns .irq ([] : List Activation).length ts' ((s.notified ds).inCall .irq [] b' n w [.ret .ok])) :
    ∃ t, exec .dispatch s = .next t ∧ Safety.Dispatched s b' ts' ds t := by
  obtain ⟨n, w, hrun⟩ := h
  rw [← ht] at hrun
  exact ⟨_, (exec_dispatch_eq hd).trans (congrArg Host.Outcome.next (hrun.trans (runTurns_ret .ok))), n, w, rfl⟩

/-! ### A status change (R280, R281) -/

/-- A dispatch for the identifier 0x8000 reads STAT (R280). -/
theorem identifierPlan_status (hi : b.statInt = true) : identifierPlan b.intWord = [.rd .stat .notify] := by
  rw [Block.intWord_of_statInt hi]
  rfl

/-- The notifications are those of the set bits (R280). -/
theorem notifyPlan_statWord (st : Stat) (a : Word) : notifyPlan (statWord st) a =
    (if st.boff then [.callback .busOff a none] else []) ++ (if st.ewarn then [.callback .errorWarning a none] else []) ++
    (if st.epass then [.callback .errorPassive a none] else []) ++
    (if st.rxok then clrRxokPlan ++ [.callback .rxOk a none] else []) ++
    (if st.txok then clrTxokPlan ++ [.callback .txOk a none] else []) ++ [.ret .ok] := by
  have hbits : (statWord st).getLsbD 7 = st.boff ∧ (statWord st).getLsbD 6 = st.ewarn ∧ (statWord st).getLsbD 5 = st.epass ∧
      (statWord st).getLsbD 4 = st.rxok ∧ (statWord st).getLsbD 3 = st.txok := by
    simp [statWord, getElem_flag, getElem_field]
  obtain ⟨hboff, hewarn, hepass, hrxok, htxok⟩ := hbits
  rw [notifyPlan, hboff, hewarn, hepass, hrxok, htxok]

/-- The word a shows STAT: only its reserved bits are open (R38, R142). -/
def Stat.ShownBy (st : Stat) (a : Word) : Prop :=
  a.getLsbD 7 = st.boff ∧ a.getLsbD 6 = st.ewarn ∧ a.getLsbD 5 = st.epass ∧ a.getLsbD 4 = st.rxok ∧ a.getLsbD 3 = st.txok ∧
    a.extractLsb' 0 3 = st.lec

theorem Block.stat_shownBy_readWord (b : Block) (free : Word) : b.stat.ShownBy (b.readWord free .stat) := by
  have hbit : ∀ i, i < 8 → (b.readWord free .stat).getLsbD i = (statWord b.stat).getLsbD i := fun i hi => by
    have hopen : (b.openBits .stat).getLsbD i = false := by
      show (0xFF00#16).getLsbD i = false
      interval_cases i <;> rfl
    rw [b.getLsbD_readWord free .stat i (by omega), hopen]
    rfl
  have hlec : (b.readWord free .stat).extractLsb' 0 3 = b.stat.lec := by
    apply BitVec.eq_of_getLsbD_eq
    intro i hi
    rw [BitVec.getLsbD_extractLsb', Nat.zero_add, hbit i (by omega)]
    interval_cases i <;> simp [statWord, getElem_flag, getElem_field]
  refine ⟨?_, ?_, ?_, ?_, ?_, hlec⟩ <;> rw [hbit _ (by decide)] <;> simp [statWord, getElem_flag, getElem_field]

/-- The reads of INT and STAT: the notifications follow, with the STAT value read, and stat_int is cleared (R142, R280). -/
theorem runTurns_statusRead (hs : Safety.Ready s) (hi : b.statInt = true) (n : Nat) (w : BitVec 32) :
    ∃ a n' w', b.stat.ShownBy a ∧ runTurns .irq cs.length (Safety.hosts 2 ++ ts) (s.inCall .irq cs b n w dispatchPlan) =
      runTurns .irq cs.length ts (s.inCall .irq cs { b with statInt := false } n' w' (notifyPlan (statWord b.stat) a)) := by
  obtain ⟨hclk, hrst, hr⟩ := hs
  obtain ⟨n₁, w₁, hint⟩ := leads_identifier (cs := cs) (ts := .host :: ts) ⟨hclk, hrst, hr⟩ n w
  rw [identifierPlan_status hi] at hint
  have hstat := runTurns_rd (cs := cs) (ts := ts) (b := b) (n := n₁) (w := w₁) (todo := []) (.inl rfl) hr
    (State.admitted_iff.2 ⟨hclk, hrst⟩) .stat .notify
  rw [Block.usedWord_stat, List.append_nil] at hstat
  exact ⟨_, _, _, b.stat_shownBy_readWord _, hint.trans hstat⟩

/-- The block after the notifications: RXOK and TXOK are cleared where they were set (R203, R218, R280). -/
def Block.noticed (b : Block) : Block := { b with stat := { b.stat with rxok := false, txok := false } }

/-- The notifications of a status change as a chain, with a callback that issues nothing: each is made, in order (R280, R281). -/
theorem leads_notices (hs : Safety.Ready s) {f : Nat} (hf : s.reg.cb = some f) (hp : s.callbackPrograms = [])
    (hi : b.statInt = false) (a : Word) :
    s.LeadsTo .irq cs (Safety.noticeTurns 2 b.stat ++ ts) b (notifyPlan (statWord b.stat) a)
      (s.notified ((Safety.notices b.stat).map fun e => { cb := f, token := s.reg.token, event := e, arg := a })) ts b.noticed
      [.ret .ok] := by
  have ⟨_, _, hr⟩ := hs
  rw [notifyPlan_statWord, Safety.noticeTurns, Safety.notices]
  simp only [List.append_assoc, List.map_append, apply_ite (List.map _), List.map_cons, List.map_nil]
  have hchain : (s.notified []).LeadsTo .irq cs _ b _ _ ts b.noticed [.ret .ok] :=
    (State.leads_notice hr hf hp [] b.stat.boff .busOff a).trans ((State.leads_notice hr hf hp _ b.stat.ewarn .errorWarning a).trans
      ((State.leads_notice hr hf hp _ b.stat.epass .errorPassive a).trans ((State.leads_noticeRx hs hf hp _ rfl hi a).trans
        (State.leads_noticeTx hs hf hp _ (b := { b with stat := { b.stat with rxok := false } }) rfl hi a))))
  rw [State.notified_nil] at hchain
  simpa only [List.nil_append, List.append_assoc] using hchain

/-- The same without a callback: none is made (R282 case 6). -/
theorem leads_noNotices (hs : Safety.Ready s) (hf : s.reg.cb = none) (hi : b.statInt = false) (a : Word) :
    s.Leads .irq cs (Safety.noticeTurns 1 b.stat ++ ts) b (notifyPlan (statWord b.stat) a) ts b.noticed [.ret .ok] := by
  have ⟨_, _, hr⟩ := hs
  rw [notifyPlan_statWord, Safety.noticeTurns]
  simp only [List.append_assoc]
  refine (State.leads_noNotice hr hf _ .busOff a).trans ((State.leads_noNotice hr hf _ .errorWarning a).trans
    ((State.leads_noNotice hr hf _ .errorPassive a).trans ((State.leads_noNoticeRx hs hf rfl hi a).trans ?_)))
  exact State.leads_noNoticeTx hs hf (b := { b with stat := { b.stat with rxok := false } }) rfl hi a

end

/-- Settles O51: the reads of INT and STAT, and the notifications of the STAT value read, made or passed over. -/
theorem dispatchStatus : Obligations.DispatchStatus := by
  unfold Obligations.DispatchStatus
  intro s ts hs hd hi b
  refine ⟨fun f hf hp ht => ?callback, fun hf ht => ?noCallback⟩
  all_goals
    rw [List.append_assoc] at ht
    obtain ⟨a, n, w, hshown, hread⟩ := runTurns_statusRead (cs := []) hs hi s.fresh s.irq.rdata
  case callback =>
    obtain ⟨n', w', hnotices⟩ := leads_notices (cs := []) (ts := ts) (b := { s.block with statInt := false }) hs hf hp rfl a n w
    obtain ⟨t, hexec, hret⟩ := exec_dispatch_returns hd ht ⟨n', w', hread.trans hnotices⟩
    exact ⟨t, a, hexec, hret, hshown⟩
  case noCallback =>
    obtain ⟨n', w', hnotices⟩ := leads_noNotices (cs := []) (ts := ts) (b := { s.block with statInt := false }) hs hf rfl a n w
    exact exec_dispatch_returns hd ht ⟨n', w', by rw [State.notified_nil]; exact hread.trans hnotices⟩

/-! ### A message object (R168, R280) -/

/-- The class of a slot's events: TX for slot 32, RX for the others (R280). -/
def slotClass (n : Slot) : IrqClass := if n.val = 31 then .tx else .rx

/-- The event of a slot's dispatch (R280). -/
def slotEvent (n : Slot) : Event := if n.val = 31 then .tx else .rx

/-- A slot's class is enabled by the class's flag of the registration (R278). -/
theorem Registration.enabled_slotClass (r : Registration) (n : Slot) :
    r.enabled (some (slotClass n)) = if n.val = 31 then r.txEn else r.rxEn := by
  unfold slotClass
  split <;> rfl

/-- The identifier of the least pending slot is that slot's number as a word (R40). -/
theorem Block.intWord_eq_slotWord {b : Block} {n : Slot} (hi : b.statInt = false) (hn : (b.obj n).intpnd = true)
    (hleast : ∀ m : Slot, m < n → (b.obj m).intpnd = false) : b.intWord = slotWord (slotNumber n) := by
  apply BitVec.eq_of_toNat_eq
  rw [Block.intWord_of_least hi hn hleast, slotWord, BitVec.toNat_ofNat, slotNumber]
  omega

/-- A dispatch for a slot's identifier clears the object's bits and then calls back (R280). -/
theorem identifierPlan_slot (n : Slot) : identifierPlan (slotWord (slotNumber n)) =
    transferPlan .if2 (slotWord (slotNumber n)) cmdIntclrRd ++
      [.callback (slotEvent n) (slotWord (slotNumber n)) (some (slotClass n)), .ret .ok] := by
  have hid : (slotWord (slotNumber n)).toNat = n.val + 1 := by
    rw [slotWord, BitVec.toNat_ofNat, slotNumber]
    omega
  have hlt := n.isLt
  rw [identifierPlan, hid, slotEvent, slotClass]
  by_cases hn : n.val = 31
  · rw [if_neg (by omega), if_pos (by omega), if_pos hn, if_pos hn]
  · rw [if_pos (by omega), if_neg hn, if_neg hn]

/-- b' is b after the clearing transfer of slot n: INTPND and NEWDAT of the object are 0, and nothing else but IF2 changed (R168). -/
def Block.ClearedSlot (b : Block) (n : Slot) (b' : Block) : Prop :=
  b'.obj n = { b.obj n with intpnd := false, newdat := false } ∧ (∀ m, m ≠ n → b'.obj m = b.obj m) ∧
    { b' with if2 := b.if2, objs := b.objs } = b

/-- A dispatch up to its callback: INT is read, and the least pending object's bits are cleared (R280). -/
theorem leads_dispatchObject {s : State} {b : Block} {n : Slot} (hs : Safety.Ready s) (hi : b.statInt = false)
    (hn : (b.obj n).intpnd = true) (hleast : ∀ m : Slot, m < n → (b.obj m).intpnd = false) (hidle : b.if2.busy = false) :
    ∃ b', b.ClearedSlot n b' ∧ ∀ cs ts, s.Leads .irq cs (.host :: (Safety.transferTurns .if2 ++ ts)) b dispatchPlan ts b'
      [.callback (slotEvent n) (slotWord (slotNumber n)) (some (slotClass n)), .ret .ok] := by
  refine ⟨b.transferred .if2 n ((slotWord (slotNumber n)).extractLsb' 0 6) cmdIntclrRd, ?cleared, fun cs ts => ?leads⟩
  case cleared =>
    rw [transferred_rd _ _ _ _ _ rfl]
    refine ⟨?_, fun m hm => ?_, rfl⟩
    · rw [Block.obj_setIface, Block.obj_setObj_same, Obj.cleared_eq]
      simp [partsOf, cmdIntclrRd]
    · rw [Block.obj_setIface, Block.obj_setObj_other _ hm]
  case leads =>
    have hint := leads_identifier (cs := cs) (ts := Safety.transferTurns .if2 ++ ts) (b := b) hs
    rw [Block.intWord_eq_slotWord hi hn hleast, identifierPlan_slot] at hint
    exact hint.trans (State.leads_transfer (.inl rfl) hs hidle (slotWord_slot rfl))

/-- Settles O52: the reads and the transfer up to the callback, which is made or passed over. -/
theorem dispatchObject : Obligations.DispatchObject := by
  unfold Obligations.DispatchObject
  intro s n ts hs hd hi hn hleast hidle enabled e
  have ⟨_, _, hr⟩ := hs
  have henabled : s.reg.enabled (some (slotClass n)) = enabled := s.reg.enabled_slotClass n
  obtain ⟨b, hcleared, hleads⟩ := leads_dispatchObject hs hi hn hleast hidle
  refine ⟨fun f hf he hp ht => ?callback, fun hdrop ht => ?dropped⟩
  case callback =>
    have hcall : s.LeadsTo .irq [] (.host :: .host :: ts) b
        [.callback (slotEvent n) (slotWord (slotNumber n)) (some (slotClass n)), .ret .ok]
        (s.notified [{ cb := f, token := s.reg.token, event := slotEvent n, arg := slotWord (slotNumber n) }]) ts b [.ret .ok] :=
      State.leads_callback (.inl rfl) hr _ _ _ f hf (henabled.trans he) hp
    obtain ⟨t, hexec, hret⟩ := exec_dispatch_returns hd ht ((hleads [] (.host :: .host :: ts)).to.trans hcall s.fresh s.irq.rdata)
    exact ⟨t, b, hexec, hret, hcleared⟩
  case dropped =>
    have hdropped : s.LeadsTo .irq [] (.host :: ts) b
        [.callback (slotEvent n) (slotWord (slotNumber n)) (some (slotClass n)), .ret .ok] (s.notified []) ts b [.ret .ok] :=
      fun n' w => ⟨n', w, by
        rw [State.notified_nil]
        exact runTurns_noCallback (.inl rfl) hr _ _ _ (hdrop.imp_right henabled.trans)⟩
    obtain ⟨t, hexec, hret⟩ := exec_dispatch_returns hd ht ((hleads [] (.host :: ts)).to.trans hdropped s.fresh s.irq.rdata)
    exact ⟨t, b, hexec, hret, hcleared⟩

end Sys2Proof.Machine

/-! SUPPORT. The gated block (R43, R305) and power-up (R300 to R302): with the clock off or reset asserted no transaction, transfer or
engine step is enabled, and a call in progress waits at its transactions and goes on with everything else. -/

namespace Sys2Proof.Machine

/-! ### The gate (R43, R305) -/

/-- The block is gated exactly with the clock off or reset asserted. -/
theorem State.admitted_eq_false_iff {s : State} : s.admitted = false ↔ s.clkEn = false ∨ s.rst = true := by
  rw [State.admitted, Bool.and_eq_false_iff, Bool.not_eq_false']

section
variable {s : State} (hgated : s.admitted = false)
include hgated

/-- XFER_k has no enabled step, whatever is in flight (R160). -/
theorem State.xferEnabled_gated (k : IfId) : s.xferEnabled k = false := by
  rw [State.xferEnabled, hgated, Bool.and_false]

/-- A bus transaction is the fault of an operation without a step (R140, R141). -/
theorem exec_bus_gated {i : Instr} (hi : (busOp i).isSome = true) : exec i s = .fault .notAdmitted := by
  obtain ⟨op, hop⟩ := Option.isSome_iff_exists.1 hi
  rw [exec_busOp hop]
  cases op <;> exact if_neg (Bool.eq_false_iff.1 hgated)

/-- A turn of XFER_k changes nothing (R160). -/
theorem State.agentStep_xfer_gated (k : IfId) : s.agentStep (.xfer k) = s := by
  unfold State.agentStep
  split
  · rfl
  · exact if_neg (Bool.eq_false_iff.1 (State.xferEnabled_gated hgated k))

/-- A turn of the protocol engine changes nothing (R266). -/
theorem State.agentStep_pe_gated (e : PeEvent) : s.agentStep (.pe e) = s := by
  unfold State.agentStep
  split
  · rfl
  · simp only [State.peStep, hgated, Bool.false_and, Bool.false_eq_true, if_false]

/-- A bus transaction of a procedure has no step: the context stays where it is (R140). -/
theorem State.micro_gated {m : Micro} (hm : m.isBus = true) (c : CtxId) (todo : List Micro) (rest : List Activation) :
    s.micro c m todo rest = s := by
  cases m with
  | rd | rdWide | wr | spinBusy | spinInit => exact if_neg (Bool.eq_false_iff.1 hgated)
  | _ => cases hm

/-- The only move that touches a gated block is an assertion of reset. -/
theorem State.Moves.block_of_gated {s' : State} {t : Turn} (h : s.Moves t s') : s'.block = s.block ∨ (t = .host ∧ s'.rst = true) := by
  have hnot : s.admitted ≠ true := Bool.eq_false_iff.1 hgated
  cases h with
  | same _ _ hb => exact .inl hb
  | release _ hb => exact .inl hb
  | reset _ _ _ hr => exact .inr ⟨rfl, hr⟩
  | read _ _ ha | stored _ _ _ ha | fault _ _ _ _ ha | engine _ _ ha => exact absurd ha hnot
  | writeTransfer _ _ _ hx | readTransfer _ _ _ hx => exact absurd (State.xferEnabled_iff.1 hx).2 hnot

end

/-! ### A host turn inside a call -/

/-- A host turn inside a call takes the call's next action (R10, R15). -/
theorem State.agentStep_host_micro {s : State} {m : Micro} {todo : List Micro} {rest : List Activation} (hr : s.refused = none)
    (hcalls : (s.ctx s.running).calls = .proc (m :: todo) :: rest) : s.agentStep .host = s.micro s.running m todo rest := by
  simp only [State.agentStep, hr, State.hostStep, hcalls]
  rfl

/-- The invocation of an always enabled callback is recorded (R279, R280). -/
theorem State.callBack_delivered {s : State} {f : Nat} (hf : s.reg.cb = some f) (c : CtxId) (e : Event) (a : Word) (todo : List Micro)
    (rest : List Activation) : (s.callBack c e a none todo rest).delivered =
      s.delivered ++ [{ cb := f, token := s.reg.token, event := e, arg := a }] := by
  simp only [State.callBack, hf, Registration.enabled]
  exact State.setCtx_delivered _ _ _

/-! ### The obligations -/

/-- Settles O9: the gated agents have no step, the moves that touch the block are excluded but for reset, and a host turn takes an action
that is no transaction. -/
theorem gatedBlock : Obligations.GatedBlock := by
  unfold Obligations.GatedBlock
  intro s h
  have hgated : s.admitted = false := State.admitted_eq_false_iff.2 h
  refine ⟨fun _ => exec_bus_gated hgated, fun k p => ?transfers, State.agentStep_xfer_gated hgated,
    State.agentStep_pe_gated hgated, fun t => (s.agentStep_moves t).block_of_gated hgated,
    fun m todo rest hm hr hcalls => ?waits, fun b todo rest hr hcalls => ?clock, fun b todo rest hr hcalls => ?reset,
    fun r todo rest hr hcalls => ?registration, fun b todo rest hr hcalls => ?hostIe, fun e a f todo rest hr hcalls hf => ?callback⟩
  case transfers =>
    have hoff : ¬ s.xferEnabled k = true := Bool.eq_false_iff.1 (State.xferEnabled_gated hgated k)
    exact ⟨if_neg hoff, if_neg hoff⟩
  case waits =>
    have hbus : m.isBus = true := by
      rcases hm with ⟨_, _, rfl⟩ | ⟨_, rfl⟩ | ⟨_, _, rfl⟩ | ⟨_, _, rfl⟩ | ⟨_, _, rfl⟩ <;> rfl
    rw [State.agentStep_host_micro hr hcalls, State.micro_gated hgated hbus]
  all_goals rw [State.agentStep_host_micro hr hcalls, State.micro]
  case clock => rw [State.continueCall_clkEn, State.envClock_clkEn]
  case reset => rw [State.continueCall_rst, State.envReset_rst]
  case registration => rw [State.continueCall_reg]
  case hostIe => rw [State.continueCall_hostIe]
  case callback => exact State.callBack_delivered hf _ e a todo rest

/-- The invariant holds at power-up: both interfaces are idle, and nothing pends (R300, R301). -/
theorem State.reset_inv : Safety.Inv State.reset where
  iface k := by cases k <;> exact ifaceInv_of_idle rfl rfl rfl
  pending := nofun
  reset _ := ⟨rfl, rfl, rfl, rfl, rfl⟩
  faults := List.nodup_nil

/-- Settles O57: the power-up state's own fields, and its invariant. -/
theorem resetState : Obligations.ResetState := by
  unfold Obligations.ResetState
  exact ⟨State.reset_inv, rfl, rfl, rfl, rfl, rfl, rfl, rfl, rfl, rfl, rfl, rfl, rfl⟩

end Sys2Proof.Machine
